-- ==== Sys2Proof/Word.lean ====
section
/-! DEFINITION. The word types of QRSE: the widths of the elements of the five spaces (spec/20_memory.md R60). -/

namespace Sys2Proof

/-- A control register, a SEGTAB element or a command word: 32 bits (R21, R31, R90). -/
abbrev Word := BitVec 32

/-- A TEXT element: one UTF-16 code unit, 16 bits (R30). -/
abbrev CodeUnit := BitVec 16

/-- A SEGDATA element, a codeword, or an element of GF(256): 8 bits (R32, R18, R170). -/
abbrev Byte := BitVec 8

end Sys2Proof
end

