-- ==== Sys2Proof/Config.lean ====
section
/-! DEFINITION. The configuration record CFG (spec/00_scope.md R10) and the free values of the model. -/

namespace Sys2Proof

/-- The three input buffers (spec/10_state.md R30, R31, R32). -/
inductive Space
  | text
  | segtab
  | segdata
deriving DecidableEq, Repr

/-- What an unpaired surrogate does (R10, R137). -/
inductive LoneSurrogate
  | fault
  | threeByte
deriving DecidableEq, Repr

/-- A byte order, for a platform that maps the buffers into byte-addressed memory (R10, R66). -/
inductive Endian
  | little
  | big
deriving DecidableEq, Repr

/-- The record CFG of R10. `hostEndian` is the OPEN parameter: `none` where the platform maps nothing into
byte-addressed memory; no rule depends on it (R66). -/
structure Cfg where
  textMax       : Nat
  segMax        : Nat
  segdataBytes  : Nat
  n3Both        : Bool
  n4Ceil        : Bool
  loneSurrogate : LoneSurrogate
  hostEndian    : Option Endian
deriving DecidableEq, Repr

/-- The defaults of R10. -/
def Cfg.default : Cfg :=
  { textMax := 4096, segMax := 16, segdataBytes := 4096, n3Both := false, n4Ceil := false,
    loneSurrogate := .fault, hostEndian := none }

/-- The constraints of R10 on the parameters (`CFG.SEG_MAX` ≤ 255: spec/92_eei_decisions.md, open parameters). -/
abbrev Cfg.Wf (c : Cfg) : Prop :=
  2954 ≤ c.textMax ∧ 1 ≤ c.segMax ∧ c.segMax ≤ 255 ∧ 2956 ≤ c.segdataBytes

/-- The number of elements of a buffer (R60). -/
def Cfg.elements (c : Cfg) : Space → Nat
  | .text => c.textMax
  | .segtab => c.segMax
  | .segdata => c.segdataBytes

/-- FREE VALUE (notes/assumptions/3.md). What a buffer element that no host write has set since the reset
number `epoch` holds: unspecified (R46; spec/93_implementation_defined.md U11). Only a host read can meet it; an
element narrower than 32 bits holds the low bits. -/
opaque Config.freeElement (epoch : Nat) (space : Space) (index : Nat) : BitVec 32

end Sys2Proof
end

