-- ==== Sys2Proof/Syntax.lean ====
section
/-! DEFINITION. The instructions of QRSE: one constructor for each row of spec/opcode_table.json. -/

namespace Sys2Proof

/-- The error-correction levels (spec/10_state.md R35). -/
inductive Level
  | low
  | medium
  | quartile
  | high
deriving DecidableEq, Repr

/-- The operations of QRSE (R3): three host commands, eleven internal stage operations, and the eight mask patterns
and four level values that the table also lists as what a decoder needs (spec/30_encoding.md R96).
Operands are the integers of R95, not yet the fields that carry them; `Instr.Wf` says which of them a field can carry. -/
inductive Instr
  | enctxt (ecc : Level)
  | encseg (ecc : Level) (minv maxv : Nat) (mask : Int) (boost : Bool)
  | getmod (x y : Int)
  | s1Segb
  | s2Vsel
  | s3Boost
  | s4Asm
  | s5Rsenc
  | s6Ilv
  | s7Fpat
  | s8Place
  | s9Msel
  | s10Final
  | s11Getm
  | mask0
  | mask1
  | mask2
  | mask3
  | mask4
  | mask5
  | mask6
  | mask7
  | eccLow
  | eccMedium
  | eccQuartile
  | eccHigh
deriving DecidableEq, Repr

/-- ENCSEG with its operands omitted (R100): D0's defaults, versions 1 to 40, automatic mask, boosting. -/
def Instr.encsegDefaults (ecc : Level) : Instr := .encseg ecc 1 40 (-1) true

end Sys2Proof
end

