-- ==== Sys2Proof/WellFormed.lean ====
section
/-! DEFINITION. Which operands the fields of a command word can carry (spec/30_encoding.md R93, R94, R95).
A well-formed instruction may still name an operand outside its legal range: the word decodes and the command raises
the range error (R99). -/

namespace Sys2Proof

/-- MINV and MAXV are unsigned 6-bit fields (R93). -/
abbrev VersionOperandFits (v : Nat) : Prop := v < 64

/-- MASK is a 4-bit two's complement field (R93). -/
abbrev MaskOperandFits (m : Int) : Prop := -8 ≤ m ∧ m ≤ 7

/-- X and Y are 12-bit two's complement fields (R94). -/
abbrev CoordOperandFits (c : Int) : Prop := -2048 ≤ c ∧ c ≤ 2047

/-- Every operand fits its field. -/
def Instr.wf : Instr → Bool
  | .encseg _ minv maxv mask _ =>
    decide (VersionOperandFits minv) && decide (VersionOperandFits maxv) && decide (MaskOperandFits mask)
  | .getmod x y => decide (CoordOperandFits x) && decide (CoordOperandFits y)
  | .enctxt _ => true
  | .s1Segb => true
  | .s2Vsel => true
  | .s3Boost => true
  | .s4Asm => true
  | .s5Rsenc => true
  | .s6Ilv => true
  | .s7Fpat => true
  | .s8Place => true
  | .s9Msel => true
  | .s10Final => true
  | .s11Getm => true
  | .mask0 => true
  | .mask1 => true
  | .mask2 => true
  | .mask3 => true
  | .mask4 => true
  | .mask5 => true
  | .mask6 => true
  | .mask7 => true
  | .eccLow => true
  | .eccMedium => true
  | .eccQuartile => true
  | .eccHigh => true

end Sys2Proof
end

