-- ==== Sys2Proof/Decode.lean ====
section
/-! DEFINITION. The encodings (spec/30_encoding.md): a decoder, total on every code, that rejects by name, and the
encoder after it. -/

namespace Sys2Proof

/-- The four places a code of spec/opcode_table.json stands in: the CMD register (R90), the STAGE register (R97), a
mask index field and a level field (R107). They are different fields of the hardware, so a code is read in its own. -/
inductive Code
  | command (w : BitVec 32)
  | stage (c : BitVec 4)
  | maskIndex (k : BitVec 3)
  | level (o : BitVec 2)
deriving DecidableEq, Repr

/-- Why a code is no instruction. -/
inductive Reject
  /-- OP is 0 or 4 to 15 (R98). -/
  | illegalOp
  /-- A bit that the word's format marks reserved is 1 (R98). -/
  | reservedBit
  /-- S0 IDLE is not an operation (R97). -/
  | idleStage
  /-- STAGE values 12 to 15 are never taken (spec/10_state.md R40). -/
  | noSuchStage
deriving DecidableEq, Repr

/-- The level with a given ordinal, as the ECC field holds it (R95, R107). -/
def levelOfOrd (o : BitVec 2) : Level :=
  match o.toNat with
  | 0 => .low
  | 1 => .medium
  | 2 => .quartile
  | _ => .high

/-- Decoding of a command word (R96): OP, then the format's reserved bits, then the operands of R95. -/
def decodeCommand (w : BitVec 32) : Except Reject Instr :=
  match (w.extractLsb' 28 4).toNat with
  | 1 =>
    if w.extractLsb' 2 26 ≠ 0 then .error .reservedBit
    else .ok (.enctxt (levelOfOrd (w.extractLsb' 0 2)))
  | 2 =>
    if w.extractLsb' 19 9 ≠ 0 then .error .reservedBit
    else .ok (.encseg (levelOfOrd (w.extractLsb' 0 2)) (w.extractLsb' 2 6).toNat (w.extractLsb' 8 6).toNat
      (w.extractLsb' 14 4).toInt (w.getLsbD 18))
  | 3 =>
    if w.extractLsb' 24 4 ≠ 0 then .error .reservedBit
    else .ok (.getmod (w.extractLsb' 0 12).toInt (w.extractLsb' 12 12).toInt)
  | _ => .error .illegalOp

/-- Decoding of a STAGE value (R97). -/
def decodeStage (c : BitVec 4) : Except Reject Instr :=
  match c.toNat with
  | 0 => .error .idleStage
  | 1 => .ok .s1Segb
  | 2 => .ok .s2Vsel
  | 3 => .ok .s3Boost
  | 4 => .ok .s4Asm
  | 5 => .ok .s5Rsenc
  | 6 => .ok .s6Ilv
  | 7 => .ok .s7Fpat
  | 8 => .ok .s8Place
  | 9 => .ok .s9Msel
  | 10 => .ok .s10Final
  | 11 => .ok .s11Getm
  | _ => .error .noSuchStage

/-- Decoding of a mask index (spec/47_mask_and_penalty.md R220 to R227). -/
def decodeMaskIndex (k : BitVec 3) : Instr :=
  match k.toNat with
  | 0 => .mask0
  | 1 => .mask1
  | 2 => .mask2
  | 3 => .mask3
  | 4 => .mask4
  | 5 => .mask5
  | 6 => .mask6
  | _ => .mask7

/-- Decoding of a level's ordinal (R107). -/
def decodeLevel (o : BitVec 2) : Instr :=
  match o.toNat with
  | 0 => .eccLow
  | 1 => .eccMedium
  | 2 => .eccQuartile
  | _ => .eccHigh

/-- The instruction a code stands for. -/
def decode : Code → Except Reject Instr
  | .command w => decodeCommand w
  | .stage c => decodeStage c
  | .maskIndex k => .ok (decodeMaskIndex k)
  | .level o => .ok (decodeLevel o)

/-- `Ord(L)` (spec/10_state.md R35). -/
def Level.ord : Level → BitVec 2
  | .low => 0
  | .medium => 1
  | .quartile => 2
  | .high => 3

/-- Format T (R92): OP 0x1 in bits 31:28, ECC in bits 1:0. -/
def encodeEnctxt (ecc : Level) : BitVec 32 :=
  0x10000000#32 ||| ecc.ord.setWidth 32

/-- Format S (R93): OP 0x2, BOOST in bit 18, MASK in 17:14, MAXV in 13:8, MINV in 7:2, ECC in 1:0. -/
def encodeEncseg (ecc : Level) (minv maxv : Nat) (mask : Int) (boost : Bool) : BitVec 32 :=
  0x20000000#32 ||| (BitVec.ofBool boost).setWidth 32 <<< 18 ||| (BitVec.ofInt 4 mask).setWidth 32 <<< 14
    ||| (BitVec.ofNat 6 maxv).setWidth 32 <<< 8 ||| (BitVec.ofNat 6 minv).setWidth 32 <<< 2
    ||| ecc.ord.setWidth 32

/-- Format G (R94): OP 0x3, Y in bits 23:12, X in bits 11:0. -/
def encodeGetmod (x y : Int) : BitVec 32 :=
  0x30000000#32 ||| (BitVec.ofInt 12 y).setWidth 32 <<< 12 ||| (BitVec.ofInt 12 x).setWidth 32

/-- The code of an instruction. -/
def encode : Instr → Code
  | .enctxt ecc => .command (encodeEnctxt ecc)
  | .encseg ecc minv maxv mask boost => .command (encodeEncseg ecc minv maxv mask boost)
  | .getmod x y => .command (encodeGetmod x y)
  | .s1Segb => .stage 0b0001
  | .s2Vsel => .stage 0b0010
  | .s3Boost => .stage 0b0011
  | .s4Asm => .stage 0b0100
  | .s5Rsenc => .stage 0b0101
  | .s6Ilv => .stage 0b0110
  | .s7Fpat => .stage 0b0111
  | .s8Place => .stage 0b1000
  | .s9Msel => .stage 0b1001
  | .s10Final => .stage 0b1010
  | .s11Getm => .stage 0b1011
  | .mask0 => .maskIndex 0b000
  | .mask1 => .maskIndex 0b001
  | .mask2 => .maskIndex 0b010
  | .mask3 => .maskIndex 0b011
  | .mask4 => .maskIndex 0b100
  | .mask5 => .maskIndex 0b101
  | .mask6 => .maskIndex 0b110
  | .mask7 => .maskIndex 0b111
  | .eccLow => .level 0b00
  | .eccMedium => .level 0b01
  | .eccQuartile => .level 0b10
  | .eccHigh => .level 0b11

/-- The code that `nbits` bits of a table row stand for. A command word has 32 bits. A stage code has 4, or 8 where it
is given in whole bytes; a mask index has 3 and a level 2. In whole bytes the last two cannot be told from a stage
code, and are read as one (notes/assumptions/5.md). -/
def codeOfTableWord (nbits w : Nat) : Option Code :=
  match nbits with
  | 32 => if w < 2 ^ 32 then some (.command (BitVec.ofNat 32 w)) else none
  | 8 => if w < 2 ^ 4 then some (.stage (BitVec.ofNat 4 w)) else none
  | 4 => if w < 2 ^ 4 then some (.stage (BitVec.ofNat 4 w)) else none
  | 3 => if w < 2 ^ 3 then some (.maskIndex (BitVec.ofNat 3 w)) else none
  | 2 => if w < 2 ^ 2 then some (.level (BitVec.ofNat 2 w)) else none
  | _ => none

/-- The instruction the decoder reads from a table row's bits; `none` where it refuses. -/
def decodeTableWord (nbits w : Nat) : Option Instr :=
  match codeOfTableWord nbits w with
  | none => none
  | some c => (decode c).toOption

end Sys2Proof
end

