-- ==== Sys2Proof/Machine/State.lean ====
section
/-! DEFINITION. The state of QRSE as plain data (spec/10_state.md), its value after reset, and the reasons a step can
stop. -/

namespace Sys2Proof.Machine

/-- The values of the stage register STAGE (R40). Values 12 to 15 are never taken. -/
inductive Stage
  | s0
  | s1
  | s2
  | s3
  | s4
  | s5
  | s6
  | s7
  | s8
  | s9
  | s10
  | s11
deriving DecidableEq, Repr

/-- A grid of modules or of function flags (spec/00_scope.md R15), as its rows from the top, each from the left. -/
structure Grid where
  rows : List (List Bool)
deriving DecidableEq, Repr

/-- A segment: its character count and its bit sequence; the mode is BYTE, fixed (R41, R138). -/
structure Segment where
  numChars : Nat
  bits     : List Bool
deriving DecidableEq, Repr

/-- A block of codewords: its data and its error-correction codewords (spec/44_reed_solomon.md R174, R175). -/
structure Block where
  data : List Byte
  ecc  : List Byte
deriving DecidableEq, Repr

/-- The symbol store SYM (R33). -/
structure Sym where
  valid   : Bool
  version : Nat
  ecl     : Level
  size    : Nat
  mask    : Nat
  modules : Grid
deriving DecidableEq, Repr

/-- The hidden working registers and arrays (R41), each under its name there. -/
structure Work where
  segs     : List Segment
  reqEcl   : Level
  minv     : Nat
  maxv     : Nat
  fmask    : Int
  boosten  : Bool
  ver      : Nat
  used     : Nat
  ecl      : Level
  bb       : List Bool
  dcw      : List Byte
  blk      : List Block
  acw      : List Byte
  m        : Grid
  f        : Grid
  bestMask : Nat
  bestPen  : Nat
deriving DecidableEq, Repr

/-- An input buffer: the elements the host has written since reset, as (index, value) pairs with the indices strictly
rising. An index that is not listed has not been written since reset (spec/20_memory.md R75). -/
structure Buffer (width : Nat) where
  cells : List (Nat × BitVec width)
deriving DecidableEq, Repr

/-- What the outside world does to QRSE: exactly the accesses of spec/20_memory.md R61 and R62, each on one register or
on a run of whole elements of one buffer, and the reset of spec/70_reset_and_hazards.md R310. -/
inductive HostAction
  | readReg (i : Fin 8)
  | writeReg (i : Fin 8) (v : Word)
  | readElements (space : Space) (a n : Nat)
  | writeText (a : Nat) (vs : List CodeUnit)
  | writeSegtab (a : Nat) (vs : List Word)
  | writeSegdata (a : Nat) (vs : List Byte)
  | reset
deriving DecidableEq, Repr

/-- A step that ends the run. Errors of QRSE are not among these: a command that raises goes on (R284). -/
inductive Fault
  /-- A host access names `n` elements from index `a` of a buffer and not all of them exist. R61: "An index outside the
  array is not an access of this interface; the model gives the host no such move". Raised by the host's element reads
  and writes; safe, for the model stops where the interface has no move. -/
  | noSuchElement (space : Space) (a n : Nat)
deriving DecidableEq, Repr

/-- A step that has no meaning. -/
inductive Refusal
  /-- An instruction that the model gives no meaning yet. No arm of `exec` answers it. Safe. -/
  | notModelled (mnemonic : String)
  /-- An encode command reads an element that no host write has set since reset. R75: "the model should refuse it (treat
  'every element the command reads has been written since reset' as a precondition of the command), not pick a value".
  Raised by ENCTXT, ENCSEG and S1 SEGB; safe. -/
  | unwrittenElement (space : Space) (index : Nat)
deriving DecidableEq, Repr

/-- The state of QRSE. STATUS is the fields `busy`, `done`, `err` and `sym.valid` (R23, R33); SYMINFO is a view of `sym`
(R28). -/
structure State where
  /-- The configuration CFG (spec/00_scope.md R10), which no step changes. The model's own field: R44 calls CFG a
  parameter of the step function, and the step function has no other argument to take it by
  (notes/assumptions/1.md). -/
  cfg      : Cfg
  /-- CMD, `x[0]` (R22). -/
  cmd      : Word
  /-- STATUS.BUSY (R23). -/
  busy     : Bool
  /-- STATUS.DONE (R23). -/
  done     : Bool
  /-- STATUS.ERR (R23). -/
  err      : Bool
  /-- ERRCODE, `x[2]` (R24). -/
  errcode  : Word
  /-- TEXTLEN.LEN, bits 15:0 of `x[3]` (R25). -/
  textlen  : BitVec 16
  /-- NSEG.N, bits 7:0 of `x[4]` (R26). -/
  nseg     : BitVec 8
  /-- RESULT.MOD, bit 0 of `x[5]` (R27). -/
  result   : Bool
  /-- TEXT (R30). -/
  text     : Buffer 16
  /-- SEGTAB (R31). -/
  segtab   : Buffer 32
  /-- SEGDATA (R32). -/
  segdata  : Buffer 8
  /-- SYM (R33). -/
  sym      : Sym
  /-- STAGE (R40). -/
  stage    : Stage
  /-- The hidden working state (R41). -/
  work     : Work
  /-- The host's accesses still to come, in its program order (R70). The model's own field: QRSE's input
  (notes/assumptions/2.md). -/
  pending  : List HostAction
  /-- The elements the latest host read returned, each in the low bits of a word. The model's own field: QRSE's output
  (notes/assumptions/2.md). -/
  readData : List Word
  /-- How many resets the host has made, which selects what the buffers hold after each. The model's own field, read by
  the free value `Config.freeElement` (notes/assumptions/3.md). -/
  epoch    : Nat
deriving DecidableEq, Repr

/-- A grid with no row. -/
def Grid.empty : Grid := ⟨[]⟩

/-- SYM after reset: not valid; R46 leaves its other fields unspecified (notes/assumptions/6.md). -/
def Sym.reset : Sym :=
  { valid := false, version := 1, ecl := .low, size := 21, mask := 0, modules := Grid.empty }

/-- The working state after reset, and at the start of an encode command: R42 empties BB, M and F and leaves the rest
unset; the values here are the model's, the default operands of spec/30_encoding.md R100 where there is one
(notes/assumptions/4.md). -/
def Work.reset : Work :=
  { segs := [], reqEcl := .low, minv := 1, maxv := 40, fmask := -1, boosten := true, ver := 1, used := 0, ecl := .low,
    bb := [], dcw := [], blk := [], acw := [], m := Grid.empty, f := Grid.empty, bestMask := 0, bestPen := 0 }

/-- The state after reset (R46, R310), with the default configuration of R10 and no host access to come. -/
def State.reset : State :=
  { cfg := Cfg.default, cmd := 0, busy := false, done := false, err := false, errcode := 0, textlen := 0, nseg := 0,
    result := false, text := ⟨[]⟩, segtab := ⟨[]⟩, segdata := ⟨[]⟩, sym := Sym.reset, stage := .s0, work := Work.reset,
    pending := [], readData := [], epoch := 0 }

end Sys2Proof.Machine
end

