-- ==== Sys2Proof/Machine/Flags.lean ====
section
/-! DEFINITION. The flag and code words of QRSE: STATUS, ERRCODE, SYMINFO, and the error causes. -/

namespace Sys2Proof.Machine

/-- The causes of spec/60_exceptions.md R281 (kind ARGUMENT_RANGE) and R282 (kind CAPACITY). -/
inductive Cause
  | illegalCmd
  | versionRange
  | maskRange
  | coordRange
  | bitWidth
  | lenRange
  | loneSurrogate
  | noVersionFits
  | payloadExceeds
deriving DecidableEq, Repr

/-- ERRCODE.KIND of a cause: 1 ARGUMENT_RANGE, 2 CAPACITY (R24, R280). -/
def Cause.kind : Cause → BitVec 2
  | .illegalCmd => 1
  | .versionRange => 1
  | .maskRange => 1
  | .coordRange => 1
  | .bitWidth => 1
  | .lenRange => 1
  | .loneSurrogate => 1
  | .noVersionFits => 2
  | .payloadExceeds => 2

/-- ERRCODE.CAUSE of a cause (R281, R282). -/
def Cause.number : Cause → BitVec 4
  | .illegalCmd => 1
  | .versionRange => 2
  | .maskRange => 3
  | .coordRange => 4
  | .bitWidth => 5
  | .lenRange => 6
  | .loneSurrogate => 7
  | .noVersionFits => 1
  | .payloadExceeds => 2

/-- The ERRCODE word of a cause: `(cause << 4) or kind` (R284). -/
def Cause.code (c : Cause) : Word :=
  c.number.setWidth 32 <<< 4 ||| c.kind.setWidth 32

/-- STATUS as the host reads it (R23): BUSY bit 0, DONE bit 1, ERR bit 2, SYMV bit 3, the rest 0. -/
def statusWord (s : State) : Word :=
  (BitVec.ofBool s.busy).setWidth 32 ||| (BitVec.ofBool s.done).setWidth 32 <<< 1
    ||| (BitVec.ofBool s.err).setWidth 32 <<< 2 ||| (BitVec.ofBool s.sym.valid).setWidth 32 <<< 3

/-- SYMINFO as the host reads it (R28): a view of SYM, 0 while no Symbol is held. -/
def syminfoWord (y : Sym) : Word :=
  if y.valid then
    (BitVec.ofNat 6 y.version).setWidth 32 ||| y.ecl.ord.setWidth 32 <<< 8 ||| (BitVec.ofNat 3 y.mask).setWidth 32 <<< 12
      ||| (BitVec.ofNat 8 y.size).setWidth 32 <<< 16
  else 0

end Sys2Proof.Machine
end

