-- ==== Sys2Proof/Machine/Ops.lean ====
section
/-! DEFINITION. The shared operations over the buffers, the registers and the course of a command. -/

namespace Sys2Proof.Machine

/-- The outcome of one step of QRSE. -/
abbrev Out := Host.Outcome State Fault Refusal

/-! ### The buffers (spec/20_memory.md) -/

/-- Indices strictly rise, from an index above `lo` on. -/
def risingFrom {w : Nat} : Nat → List (Nat × BitVec w) → Bool
  | _, [] => true
  | lo, (i, _) :: rest => decide (lo ≤ i) && risingFrom (i + 1) rest

/-- The canonical form of a buffer: its indices strictly rise. -/
def Buffer.wf {w : Nat} (b : Buffer w) : Bool := risingFrom 0 b.cells

/-- The value listed for an index. -/
def lookupCell {w : Nat} (i : Nat) : List (Nat × BitVec w) → Option (BitVec w)
  | [] => none
  | (j, v) :: rest => if j = i then some v else lookupCell i rest

/-- One element; `none` where no host write has set it since reset (R75). -/
def Buffer.read {w : Nat} (b : Buffer w) (i : Nat) : Option (BitVec w) := lookupCell i b.cells

/-- Put one value into a rising list, in its place. -/
def insertCell {w : Nat} (i : Nat) (v : BitVec w) : List (Nat × BitVec w) → List (Nat × BitVec w)
  | [] => [(i, v)]
  | (j, u) :: rest =>
    if i < j then (i, v) :: (j, u) :: rest
    else if i = j then (i, v) :: rest
    else (j, u) :: insertCell i v rest

/-- Write one element (R61: whole elements only). -/
def Buffer.write {w : Nat} (b : Buffer w) (i : Nat) (v : BitVec w) : Buffer w := ⟨insertCell i v b.cells⟩

/-- `MemWrite(space, a, n, v)` (R62): the values at indices a, a + 1, and so on. -/
def Buffer.writeRun {w : Nat} (b : Buffer w) : Nat → List (BitVec w) → Buffer w
  | _, [] => b
  | a, v :: vs => (b.write a v).writeRun (a + 1) vs

/-- `MemRead(space, a, n)` (R62) by a command: the elements at indices a to a + n - 1, or the first of those indices
that no host write has set since reset (R75). -/
def Buffer.readRun {w : Nat} (b : Buffer w) (a : Nat) : Nat → Except Nat (List (BitVec w))
  | 0 => .ok []
  | n + 1 =>
    match b.read a with
    | none => .error a
    | some v =>
      match b.readRun (a + 1) n with
      | .error i => .error i
      | .ok vs => .ok (v :: vs)

/-- One element as the host reads it, in the low bits of a word: what was written, or else the unspecified value the
buffer holds since reset (R46, a free value). -/
def hostElement {w : Nat} (epoch : Nat) (space : Space) (b : Buffer w) (i : Nat) : Word :=
  match b.read i with
  | some v => v.setWidth 32
  | none => ((Config.freeElement epoch space i).setWidth w).setWidth 32

/-- One element of a buffer as the host reads it. -/
def readElement (space : Space) (i : Nat) (s : State) : Word :=
  match space with
  | .text => hostElement s.epoch .text s.text i
  | .segtab => hostElement s.epoch .segtab s.segtab i
  | .segdata => hostElement s.epoch .segdata s.segdata i

/-! ### The control registers (spec/10_state.md R21) -/

/-- A host read of `x[i]`. It has no side effect on QRSE (spec/20_memory.md R62). -/
def readReg (i : Fin 8) (s : State) : Word :=
  match i with
  | 0 => s.cmd
  | 1 => statusWord s
  | 2 => s.errcode
  | 3 => s.textlen.setWidth 32
  | 4 => s.nseg.setWidth 32
  | 5 => (BitVec.ofBool s.result).setWidth 32
  | 6 => syminfoWord s.sym
  | 7 => 0

/-- A host write of `x[i]` other than CMD: TEXTLEN keeps bits 15:0 and NSEG bits 7:0 (R25, R26); a write of a read-only
register or of `x[7]` is ignored (R21). -/
def writeReg (i : Fin 8) (v : Word) (s : State) : State :=
  match i with
  | 3 => { s with textlen := v.setWidth 16 }
  | 4 => { s with nseg := v.setWidth 8 }
  | _ => s

/-! ### The course of a command (spec/49_commands.md R260) -/

/-- `pc <- S` (spec/00_scope.md R16). -/
def setStage (p : Stage) (s : State) : State := { s with stage := p }

/-- Replace the hidden working state. -/
def setWork (w : Work) (s : State) : State := { s with work := w }

/-- The start of `Execute(w)` (R260): CMD holds the word, BUSY is set, ERR is cleared. -/
def startCommand (w : Word) (s : State) : State :=
  { s with cmd := w, busy := true, err := false }

/-- `SYM.valid <- 0` (R260). -/
def invalidate (s : State) : State := { s with sym := { s.sym with valid := false } }

/-- The start of an encode command: R260's start, the invalidation of SYM, and the cleared working state of R42. -/
def startEncode (w : Word) (s : State) : State :=
  setWork Work.reset (invalidate (startCommand w s))

/-- The end of a command that has not raised (R260). -/
def complete (s : State) : State :=
  { s with errcode := 0, done := true, busy := false, stage := .s0 }

/-- Taking an exception: `Raise(kind, cause)` (spec/60_exceptions.md R284). Nothing is saved and no mode changes; the
command ends. There is no return from it to model (R285). DESIGN CHOICE: the working state, which R284 abandons, stays
as the stages before the raising one left it (notes/assumptions/16.md). -/
def raise (c : Cause) (s : State) : State :=
  { s with errcode := c.code, err := true, done := true, busy := false, stage := .s0 }

/-- Go on with the next stage of a command that has neither raised nor stopped. A command that raised has left BUSY. -/
def andThen (o : Out) (f : State → Out) : Out :=
  match o with
  | .next s => if s.busy then f s else .next s
  | .fault r => .fault r
  | .refused r => .refused r

/-- The end of a command: R260's completion, where it has not raised. -/
def finish (o : Out) : Out :=
  andThen o fun s => .next (complete s)

/-- The state after a host reset (spec/70_reset_and_hazards.md R310), wherever it arrives. The configuration and what
the host does next are not QRSE's to reset; the buffers' contents are unspecified anew. -/
def hostReset (rest : List HostAction) (s : State) : State :=
  { State.reset with cfg := s.cfg, pending := rest, epoch := s.epoch + 1 }

end Sys2Proof.Machine
end

