-- ==== Sys2Proof/Machine/Operands.lean ====
section
/-! DEFINITION. Operand assembly and bit sequences (spec/00_scope.md R13, R14; spec/30_encoding.md R95). -/

namespace Sys2Proof.Machine

/-- `BitsMSB(v, n)` (R14): the n bits of v, most significant first. -/
def bitsMSB (v : Nat) : Nat → List Bool
  | 0 => []
  | n + 1 => v.testBit n :: bitsMSB v n

/-- The bits of a byte, most significant first (spec/20_memory.md R64). -/
def byteBits (b : Byte) : List Bool := bitsMSB b.toNat 8

/-- The bits of a byte list viewed as a bit sequence (R64). -/
def bytesBits (bs : List Byte) : List Bool := bs.flatMap byteBits

/-- The number whose bits are a sequence, most significant first. -/
def bitsValue (bits : List Bool) : Nat := bits.foldl (fun acc b => 2 * acc + b.toNat) 0

/-- `Pack8(s)` (R14), for a sequence of 8·n bits or more: its first n codewords. -/
def pack8 (bits : List Bool) : Nat → List Byte
  | 0 => []
  | n + 1 => BitVec.ofNat 8 (bitsValue (bits.take 8)) :: pack8 (bits.drop 8) n

/-- The column operand of GETMOD, `sext_12(w[11:0])` (R95). -/
def coordX (w : Word) : Int := (w.extractLsb' 0 12).toInt

/-- The row operand of GETMOD, `sext_12(w[23:12])` (R95). -/
def coordY (w : Word) : Int := (w.extractLsb' 12 12).toInt

/-- NUMCHARS, bits 15:0 of a SEGTAB element (spec/10_state.md R31). -/
def segNumChars (e : Word) : Nat := (e.extractLsb' 0 16).toNat

/-- BITLEN, bits 31:16 of a SEGTAB element (R31). -/
def segBitLen (e : Word) : Nat := (e.extractLsb' 16 16).toNat

/-- off_N, the sum of the lengths in a list of SEGTAB elements (R32). -/
def totalBitLen (tab : List Word) : Nat := (tab.map segBitLen).sum

/-- Cut the bit sequence of SEGDATA into the segments that SEGTAB describes, back to back (R32). -/
def cutSegments : List Word → List Bool → List Segment
  | [], _ => []
  | e :: es, bits =>
    { numChars := segNumChars e, bits := bits.take (segBitLen e) } :: cutSegments es (bits.drop (segBitLen e))

/-- A level latched as the requested level: `REQ_ECL <- ecc` (spec/49_commands.md R261, R262). -/
def latchLevel (ecc : Level) (s : State) : State := setWork { s.work with reqEcl := ecc } s

/-- The operands of an encode command latched at its start (R261, R262). -/
def latchOperands (ecc : Level) (minv maxv : Nat) (mask : Int) (boost : Bool) (s : State) : State :=
  latchLevel ecc (setWork { s.work with minv := minv, maxv := maxv, fmask := mask, boosten := boost } s)

end Sys2Proof.Machine
end

