-- ==== Sys2Proof/Machine/Capacity.lean ====
section
/-! DEFINITION. The capacity functions and the constant tables (spec/42_version_selector.md R140 to R146). -/

namespace Sys2Proof.Machine

/-- The rows of `ECC_PER_BLOCK` (R143), versions 1 to 40. -/
def eccPerBlockRow : Level → List Nat
  | .low =>
    [7, 10, 15, 20, 26, 18, 20, 24, 30, 18, 20, 24, 26, 30, 22, 24, 28, 30, 28, 28] ++
    [28, 28, 30, 30, 26, 28, 30, 30, 30, 30, 30, 30, 30, 30, 30, 30, 30, 30, 30, 30]
  | .medium =>
    [10, 16, 26, 18, 24, 16, 18, 22, 22, 26, 30, 22, 22, 24, 24, 28, 28, 26, 26, 26] ++
    [26, 28, 28, 28, 28, 28, 28, 28, 28, 28, 28, 28, 28, 28, 28, 28, 28, 28, 28, 28]
  | .quartile =>
    [13, 22, 18, 26, 18, 24, 18, 22, 20, 24, 28, 26, 24, 20, 30, 24, 28, 28, 26, 30] ++
    [28, 30, 30, 30, 30, 28, 30, 30, 30, 30, 30, 30, 30, 30, 30, 30, 30, 30, 30, 30]
  | .high =>
    [17, 28, 22, 16, 22, 28, 26, 26, 24, 28, 24, 28, 22, 24, 24, 30, 28, 28, 26, 28] ++
    [30, 24, 30, 30, 30, 30, 30, 30, 30, 30, 30, 30, 30, 30, 30, 30, 30, 30, 30, 30]

/-- The rows of `NUM_BLOCKS` (R144), versions 1 to 40. -/
def numBlocksRow : Level → List Nat
  | .low =>
    [1, 1, 1, 1, 1, 2, 2, 2, 2, 4, 4, 4, 4, 4, 6, 6, 6, 6, 7, 8] ++
    [8, 9, 9, 10, 12, 12, 12, 13, 14, 15, 16, 17, 18, 19, 19, 20, 21, 22, 24, 25]
  | .medium =>
    [1, 1, 1, 2, 2, 4, 4, 4, 5, 5, 5, 8, 9, 9, 10, 10, 11, 13, 14, 16] ++
    [17, 17, 18, 20, 21, 23, 25, 26, 28, 29, 31, 33, 35, 37, 38, 40, 43, 45, 47, 49]
  | .quartile =>
    [1, 1, 2, 2, 4, 4, 6, 6, 8, 8, 8, 10, 12, 16, 12, 17, 16, 18, 21, 20] ++
    [23, 23, 25, 27, 29, 34, 34, 35, 38, 40, 43, 45, 48, 51, 53, 56, 59, 62, 65, 68]
  | .high =>
    [1, 1, 2, 4, 4, 4, 5, 6, 8, 8, 11, 11, 16, 16, 18, 16, 19, 21, 25, 25] ++
    [25, 34, 30, 32, 35, 37, 40, 42, 45, 48, 51, 54, 57, 60, 63, 66, 70, 74, 77, 81]

/-- `ECC_PER_BLOCK[Ord(L)][v]` (R143); 0 outside versions 1 to 40, which no command reaches. -/
def eccPerBlock (l : Level) (v : Nat) : Nat := (0 :: eccPerBlockRow l).getD v 0

/-- `NUM_BLOCKS[Ord(L)][v]` (R144); 0 outside versions 1 to 40, which no command reaches. -/
def numBlocks (l : Level) (v : Nat) : Nat := (0 :: numBlocksRow l).getD v 0

/-- The side length of a version (spec/00_scope.md R9). -/
def sideOf (v : Nat) : Nat := 4 * v + 17

/-- `CountFieldWidth(v)` (R140). -/
def countFieldWidth (v : Nat) : Nat := if v ≤ 9 then 8 else 16

/-- `RawModules(v)` (R141), the closed form. -/
def rawModules (v : Nat) : Nat :=
  let r := (16 * v + 128) * v + 64
  if 2 ≤ v then
    let n := v / 7 + 2
    let r := r - ((25 * n - 10) * n - 55)
    if 7 ≤ v then r - 36 else r
  else r

/-- `RawCodewords(v)` (R142). -/
def rawCodewords (v : Nat) : Nat := rawModules v / 8

/-- `DataCodewords(v, L)` (R145). -/
def dataCodewords (v : Nat) (l : Level) : Nat := rawCodewords v - eccPerBlock l v * numBlocks l v

/-- `DataCapacityBits(v, L)` (R145). -/
def dataCapacityBits (v : Nat) (l : Level) : Nat := 8 * dataCodewords v l

/-- `TotalBits(segs, v)` (R146). -/
def totalBits : List Segment → Nat → Option Nat
  | [], _ => some 0
  | s :: rest, v =>
    if 2 ^ countFieldWidth v ≤ s.numChars then none
    else
      match totalBits rest v with
      | none => none
      | some t => some (4 + countFieldWidth v + s.bits.length + t)

/-- The first version in minv .. maxv, ascending, whose capacity at a level holds the segments, with their total
length there (R147). -/
def firstFit (segs : List Segment) (l : Level) (minv maxv : Nat) : Option (Nat × Nat) :=
  (List.range' minv (maxv + 1 - minv)).findSome? fun v =>
    match totalBits segs v with
    | none => none
    | some t => if t ≤ dataCapacityBits v l then some (v, t) else none

/-- The level after boosting (R148): each of MEDIUM, QUARTILE, HIGH in turn is taken if the bits still fit it. -/
def boostLevel (v used : Nat) (l : Level) : Level :=
  [Level.medium, Level.quartile, Level.high].foldl (fun l' m => if used ≤ dataCapacityBits v m then m else l') l

end Sys2Proof.Machine
end

