-- ==== Sys2Proof/Machine/Assembler.lean ====
section
/-! DEFINITION. The Codeword Assembler, stage S4 ASM (spec/43_codeword_assembler.md). -/

namespace Sys2Proof.Machine

/-- `AppendBits(bb, val, n)` (R160); `none` is its raise of BITWIDTH. -/
def appendBits (bb : List Bool) (val n : Nat) : Option (List Bool) :=
  if n ≤ 31 ∧ val < 2 ^ n then some (bb ++ bitsMSB val n) else none

/-- One segment appended: mode indicator, character count, payload (R161, R162). -/
def appendSegment (ver : Nat) (bb : List Bool) (s : Segment) : Option (List Bool) :=
  match appendBits bb 0x4 4 with
  | none => none
  | some bb =>
    match appendBits bb s.numChars (countFieldWidth ver) with
    | none => none
    | some bb => some (bb ++ s.bits)

/-- All segments appended, in order (R168). -/
def appendSegments (ver : Nat) : List Bool → List Segment → Option (List Bool)
  | bb, [] => some bb
  | bb, s :: rest =>
    match appendSegment ver bb s with
    | none => none
    | some bb => appendSegments ver bb rest

/-- The terminator: min(4, cap - len) zero bits (R164). -/
def addTerminator (cap : Nat) (bb : List Bool) : List Bool := bb ++ List.replicate (min 4 (cap - bb.length)) false

/-- Zero bits up to a byte boundary (R165). -/
def addBitPadding (bb : List Bool) : List Bool := bb ++ List.replicate ((8 - bb.length % 8) % 8) false

/-- n pad codewords, alternating from a first one: 0xEC xor 0xFD = 0x11 (R166, R168). -/
def padCodewords : Nat → Byte → List Byte
  | 0, _ => []
  | n + 1, p => p :: padCodewords n (p ^^^ 0xFD)

/-- Pad codewords, 0xEC first, until the stream is `cap` bits long (R166): as many as R166's loop appends. -/
def addPadCodewords (cap : Nat) (bb : List Bool) : List Bool :=
  bb ++ bytesBits (padCodewords ((cap - bb.length + 7) / 8) 0xEC)

/-- The stream padded to capacity (R164, R165, R166). -/
def padStream (cap : Nat) (bb : List Bool) : List Bool := addPadCodewords cap (addBitPadding (addTerminator cap bb))

/-- S4 ASM (R168), with the capacity check of R163 and the packing of R167. DESIGN CHOICE: where it raises, BB, which
R284 abandons, is left as it was before S4 (notes/assumptions/16.md). -/
def execS4Asm (s : State) : Out :=
  match appendSegments s.work.ver [] s.work.segs with
  | none => .next (raise .bitWidth s)
  | some bb =>
    let cap := dataCapacityBits s.work.ver s.work.ecl
    if cap < bb.length then .next (raise .payloadExceeds s)
    else
      let full := padStream cap bb
      .next (setStage .s5 (setWork { s.work with bb := full, dcw := pack8 full (full.length / 8) } s))

end Sys2Proof.Machine
end

