-- ==== Sys2Proof/Machine/ErrorCorrection.lean ====
section
/-! DEFINITION. The Error-Correction Engine, stages S5 RSENC and S6 ILV (spec/44_reed_solomon.md). -/

namespace Sys2Proof.Machine

/-- Multiplication by the element 0x02 in the field of R170: a shift, with the reduction constant 0x1D on overflow. -/
def gfDouble (z : Byte) : Byte := z <<< 1 ^^^ (if z.msb then 0x1D else 0)

/-- One round of R171's loop, for bit i of b. -/
def gfMulStep (a b z : Byte) (i : Nat) : Byte := gfDouble z ^^^ (if b.getLsbD i then a else 0)

/-- `GfMul(a, b)` (R171): i from 7 down to 0. -/
def gfMul (a b : Byte) : Byte := [7, 6, 5, 4, 3, 2, 1, 0].foldl (gfMulStep a b) 0

/-- One pass of the inner loop of R172: the product of a polynomial by (x - root), coefficients from the highest. -/
def divisorPass (root : Byte) : List Byte → List Byte
  | [] => []
  | [a] => [gfMul a root]
  | a :: b :: rest => (gfMul a root ^^^ b) :: divisorPass root (b :: rest)

/-- The outer loop of R172, `n` more times. -/
def divisorLoop : Nat → Byte → List Byte → List Byte
  | 0, _, div => div
  | n + 1, root, div => divisorLoop n (gfMul root 0x02) (divisorPass root div)

/-- `RsDivisor(E)` (R172). -/
def rsDivisor (e : Nat) : List Byte := divisorLoop e 1 (List.replicate (e - 1) 0 ++ [1])

/-- One codeword taken in by R173's loop. -/
def remainderStep (div rem : List Byte) (b : Byte) : List Byte :=
  let factor := b ^^^ rem.headD 0
  List.zipWith (fun r d => r ^^^ gfMul d factor) (rem.drop 1 ++ [0]) div

/-- `RsRemainder(data, div)` (R173). -/
def rsRemainder (data div : List Byte) : List Byte :=
  data.foldl (remainderStep div) (List.replicate div.length 0)

/-- shortLen (R174). -/
def shortLen (v : Nat) (l : Level) : Nat := rawCodewords v / numBlocks l v

/-- numShort (R174). -/
def numShort (v : Nat) (l : Level) : Nat := numBlocks l v - rawCodewords v % numBlocks l v

/-- dataLen(j) (R174). -/
def blockDataLen (v : Nat) (l : Level) (j : Nat) : Nat :=
  shortLen v l - eccPerBlock l v + (if j < numShort v l then 0 else 1)

/-- Consecutive blocks of given data lengths cut from the data codewords, each with its remainder (R175, R179). -/
def cutBlocks (div : List Byte) : List Nat → List Byte → List Block
  | [], _ => []
  | n :: ns, dcw => { data := dcw.take n, ecc := rsRemainder (dcw.take n) div } :: cutBlocks div ns (dcw.drop n)

/-- The B blocks of a symbol (R174, R175). -/
def makeBlocks (v : Nat) (l : Level) (dcw : List Byte) : List Block :=
  cutBlocks (rsDivisor (eccPerBlock l v)) ((List.range (numBlocks l v)).map (blockDataLen v l)) dcw

/-- S5 RSENC (R179). -/
def execS5Rsenc (s : State) : Out :=
  .next (setStage .s6 (setWork { s.work with blk := makeBlocks s.work.ver s.work.ecl s.work.dcw } s))

/-- Position i of each list that has one, in list order (R176). -/
def codewordsAt (lists : List (List Byte)) (i : Nat) : List Byte := lists.filterMap fun l => l[i]?

/-- The first n positions of the lists, position by position (R176). -/
def interleaveLists (n : Nat) (lists : List (List Byte)) : List Byte := (List.range n).flatMap (codewordsAt lists)

/-- `Interleave(BLK)` (R176): the data parts, then the error-correction parts (spec/90_conflicts.md C1). -/
def interleave (v : Nat) (l : Level) (blk : List Block) : List Byte :=
  interleaveLists (shortLen v l - eccPerBlock l v + 1) (blk.map Block.data)
    ++ interleaveLists (eccPerBlock l v) (blk.map Block.ecc)

/-- S6 ILV (R180). -/
def execS6Ilv (s : State) : Out :=
  .next (setStage .s7 (setWork { s.work with acw := interleave s.work.ver s.work.ecl s.work.blk } s))

end Sys2Proof.Machine
end

