-- ==== Sys2Proof/Machine/Canvas.lean ====
section
/-! DEFINITION. The grids and the write primitive of the Matrix Builder (spec/00_scope.md R15;
spec/45_function_patterns.md R190). -/

namespace Sys2Proof.Machine

/-- `G[x, y]`: column x, row y (R15). Outside the grid, light. -/
def Grid.get (g : Grid) (x y : Nat) : Bool := (g.rows.getD y []).getD x false

/-- `G[x, y] <- b` (R15). Outside the grid, nothing. -/
def Grid.set (g : Grid) (x y : Nat) (b : Bool) : Grid := ⟨g.rows.modify y fun row => row.set x b⟩

/-- The grid of side n whose module (x, y) is `p x y`. -/
def Grid.build (n : Nat) (p : Nat → Nat → Bool) : Grid :=
  ⟨(List.range n).map fun y => (List.range n).map fun x => p x y⟩

/-- The all-light grid of side n. -/
def Grid.blank (n : Nat) : Grid := ⟨List.replicate n (List.replicate n false)⟩

/-- A grid of side n: n rows of n modules. -/
def Grid.square (g : Grid) (n : Nat) : Bool := g.rows.length == n && g.rows.all fun row => row.length == n

/-- Row y, left to right. -/
def Grid.row (g : Grid) (y : Nat) : List Bool := g.rows.getD y []

/-- Column x, top to bottom. -/
def Grid.column (g : Grid) (x : Nat) : List Bool := g.rows.map fun row => row.getD x false

/-- The two construction grids, M (colours) and F (function flags), with their side. -/
structure Canvas where
  size : Nat
  m    : Grid
  f    : Grid
deriving DecidableEq, Repr

/-- The grids of the working state, at the side of its version (spec/10_state.md R41). -/
def canvasOf (w : Work) : Canvas := { size := sideOf w.ver, m := w.m, f := w.f }

/-- The working state with the grids of a canvas. -/
def withCanvas (c : Canvas) (w : Work) : Work := { w with m := c.m, f := c.f }

/-- `SetFn(x, y, b)` (R190). -/
def setFn (x y : Nat) (b : Bool) (c : Canvas) : Canvas := { c with m := c.m.set x y b, f := c.f.set x y true }

/-- `SetFn` on each of a list of cells, in order. -/
def setFnAll (cells : List (Nat × Nat × Bool)) (c : Canvas) : Canvas :=
  cells.foldl (fun c p => setFn p.1 p.2.1 p.2.2 c) c

end Sys2Proof.Machine
end

