-- ==== Sys2Proof/Machine/FormatInfo.lean ====
section
/-! DEFINITION. Format and version information (spec/48_format_version_info.md). -/

namespace Sys2Proof.Machine

/-- `Fmt(L)` (R250). -/
def fmt : Level → Nat
  | .low => 1
  | .medium => 0
  | .quartile => 3
  | .high => 2

/-- `n` rounds of the bitwise long division of R251 and R253: the top bit, number `top`, selects the generator. -/
def bchLoop (top gen : Nat) : Nat → Nat → Nat
  | 0, rem => rem
  | n + 1, rem => bchLoop top gen n ((rem <<< 1) ^^^ ((rem >>> top) * gen))

/-- `FormatWord(L, k)` (R251), for a mask index k. -/
def formatWord (l : Level) (k : Nat) : BitVec 15 :=
  let data := (fmt l <<< 3) ||| k
  BitVec.ofNat 15 (((data <<< 10) ||| bchLoop 9 0x537 10 data) ^^^ 0x5412)

/-- `VersionWord(v)` (R253). -/
def versionWord (v : Nat) : BitVec 18 := BitVec.ofNat 18 ((v <<< 12) ||| bchLoop 11 0x1F25 12 v)

/-- The cell of bit i of the format word in the first copy, around the top-left finder (R252). -/
def formatCell1 (i : Nat) : Nat × Nat :=
  if i ≤ 5 then (8, i)
  else if i = 6 then (8, 7)
  else if i = 7 then (8, 8)
  else if i = 8 then (7, 8)
  else (14 - i, 8)

/-- The cell of bit i of the format word in the second copy (R252). -/
def formatCell2 (size i : Nat) : Nat × Nat :=
  if i ≤ 7 then (size - 1 - i, 8) else (8, size - 15 + i)

/-- What `DrawFormatBitsWord(w)` sets: the first copy, the second copy, the dark module (R252). -/
def formatCells (size : Nat) (w : BitVec 15) : List (Nat × Nat × Bool) :=
  (List.range 15).map (fun i => ((formatCell1 i).1, (formatCell1 i).2, w.getLsbD i))
    ++ (List.range 15).map (fun i => ((formatCell2 size i).1, (formatCell2 size i).2, w.getLsbD i))
    ++ [(8, size - 8, true)]

/-- `DrawFormatBitsWord(w)` (R252). -/
def drawFormatBitsWord (w : BitVec 15) (c : Canvas) : Canvas := setFnAll (formatCells c.size w) c

/-- `DrawFormatBits(k)` (R252), with the final level. -/
def drawFormatBits (l : Level) (k : Nat) (c : Canvas) : Canvas := drawFormatBitsWord (formatWord l k) c

/-- What `DrawVersion()` sets: each bit once in each of the two blocks (R254). -/
def versionCells (v : Nat) : List (Nat × Nat × Bool) :=
  (List.range 18).flatMap fun i =>
    let a := sideOf v - 11 + i % 3
    let b := i / 3
    [(a, b, (versionWord v).getLsbD i), (b, a, (versionWord v).getLsbD i)]

/-- `DrawVersion()` (R254): for version 7 and above only. -/
def drawVersion (v : Nat) (c : Canvas) : Canvas := if 7 ≤ v then setFnAll (versionCells v) c else c

end Sys2Proof.Machine
end

