-- ==== Sys2Proof/Machine/FunctionPatterns.lean ====
section
/-! DEFINITION. The Matrix Builder's function patterns, stage S7 FPAT (spec/45_function_patterns.md). -/

namespace Sys2Proof.Machine

/-- The integers -r .. r, ascending. -/
def offsets (r : Nat) : List Int := (List.range (2 * r + 1)).map fun i => (i : Int) - r

/-- The Chebyshev distance of an offset from a centre (R192, R195). -/
def chebyshev (dx dy : Int) : Nat := max dx.natAbs dy.natAbs

/-- The cell at an offset from a finder's centre, where it lies in the grid: dark unless in the light ring or the
separator (R192). -/
def finderCell (size cx cy : Nat) (dx dy : Int) : Option (Nat × Nat × Bool) :=
  let x := (cx : Int) + dx
  let y := (cy : Int) + dy
  if 0 ≤ x ∧ x < size ∧ 0 ≤ y ∧ y < size then
    some (x.toNat, y.toNat, chebyshev dx dy != 2 && chebyshev dx dy != 4)
  else none

/-- A finder pattern with its separator (R192). -/
def finderCells (size cx cy : Nat) : List (Nat × Nat × Bool) :=
  (offsets 4).flatMap fun dy => (offsets 4).filterMap fun dx => finderCell size cx cy dx dy

/-- `DrawFinders()` (R192): top-left, top-right, bottom-left. -/
def drawFinders (c : Canvas) : Canvas :=
  setFnAll (finderCells c.size 3 3 ++ finderCells c.size (c.size - 4) 3 ++ finderCells c.size 3 (c.size - 4)) c

/-- `SetFn` on a cell that is not yet a function module. -/
def setFnIfFree (x y : Nat) (b : Bool) (c : Canvas) : Canvas := if c.f.get x y then c else setFn x y b c

/-- `DrawTiming()` (R193): row 6 and column 6, dark at even coordinates, function modules skipped. -/
def drawTiming (c : Canvas) : Canvas :=
  (List.range c.size).foldl (fun c i => setFnIfFree 6 i (i % 2 == 0) (setFnIfFree i 6 (i % 2 == 0) c)) c

/-- The number of alignment positions of a version above 1 (R194). -/
def alignCount (v : Nat) : Nat := v / 7 + 2

/-- The step between alignment positions (R194), with version 32 as a special case. -/
def alignStep (v : Nat) : Nat :=
  if v = 32 then 26 else 2 * ((4 * v + 4 + (2 * alignCount v - 2) - 1) / (2 * alignCount v - 2))

/-- `AlignPos(v)` (R194). -/
def alignPos (v : Nat) : List Nat :=
  if v = 1 then []
  else
    6 :: (List.range' 1 (alignCount v - 1)).map fun k => sideOf v - 7 - (alignCount v - 1 - k) * alignStep v

/-- The 5×5 alignment pattern at a centre (R195). -/
def alignmentCells (cx cy : Nat) : List (Nat × Nat × Bool) :=
  (offsets 2).flatMap fun dy =>
    (offsets 2).map fun dx => (((cx : Int) + dx).toNat, ((cy : Int) + dy).toNat, chebyshev dx dy != 1)

/-- The pairs of position numbers at which an alignment pattern stands: all but the three finder corners (R195). -/
def alignmentPairs (n : Nat) : List (Nat × Nat) :=
  (List.range n).flatMap fun i =>
    (List.range n).filterMap fun j =>
      if (i = 0 ∧ j = 0) ∨ (i = 0 ∧ j = n - 1) ∨ (i = n - 1 ∧ j = 0) then none else some (i, j)

/-- `DrawAlignment()` (R195). -/
def drawAlignment (v : Nat) (c : Canvas) : Canvas :=
  let p := alignPos v
  setFnAll ((alignmentPairs p.length).flatMap fun ij => alignmentCells (p.getD ij.1 0) (p.getD ij.2 0)) c

/-- The two grids of a version after S7 (R191, R200). -/
def functionPatterns (v : Nat) : Canvas :=
  let blank : Canvas := { size := sideOf v, m := Grid.blank (sideOf v), f := Grid.blank (sideOf v) }
  drawVersion v
    (setFn 8 (sideOf v - 8) true
      (drawFormatBitsWord 0 (drawAlignment v (drawTiming (drawFinders blank)))))

/-- S7 FPAT (R200). -/
def execS7Fpat (s : State) : Out :=
  .next (setStage .s8 (setWork (withCanvas (functionPatterns s.work.ver) s.work) s))

end Sys2Proof.Machine
end

