-- ==== Sys2Proof/Machine/Masks.lean ====
section
/-! DEFINITION. The eight mask patterns (spec/47_mask_and_penalty.md R220 to R229), each with its meaning as a table
row: the application of that mask to the grids (R228). -/

namespace Sys2Proof.Machine

/-- `MaskPred(0, x, y)` (R220). -/
def mask0Pred (x y : Nat) : Bool := (x + y) % 2 == 0

/-- `MaskPred(1, x, y)` (R221). -/
def mask1Pred (_x y : Nat) : Bool := y % 2 == 0

/-- `MaskPred(2, x, y)` (R222). -/
def mask2Pred (x _y : Nat) : Bool := x % 3 == 0

/-- `MaskPred(3, x, y)` (R223). -/
def mask3Pred (x y : Nat) : Bool := (x + y) % 3 == 0

/-- `MaskPred(4, x, y)` (R224). -/
def mask4Pred (x y : Nat) : Bool := (x / 3 + y / 2) % 2 == 0

/-- `MaskPred(5, x, y)` (R225). -/
def mask5Pred (x y : Nat) : Bool := x * y % 2 + x * y % 3 == 0

/-- `MaskPred(6, x, y)` (R226). -/
def mask6Pred (x y : Nat) : Bool := (x * y % 2 + x * y % 3) % 2 == 0

/-- `MaskPred(7, x, y)` (R227). -/
def mask7Pred (x y : Nat) : Bool := ((x + y) % 2 + x * y % 3) % 2 == 0

/-- `MaskPred(k, x, y)` for k in 0..7; false for any other k, which no rule uses. -/
def maskPred (k x y : Nat) : Bool :=
  match k with
  | 0 => mask0Pred x y
  | 1 => mask1Pred x y
  | 2 => mask2Pred x y
  | 3 => mask3Pred x y
  | 4 => mask4Pred x y
  | 5 => mask5Pred x y
  | 6 => mask6Pred x y
  | 7 => mask7Pred x y
  | _ => false

/-- A module after the mask: inverted where the predicate holds and it is no function module (R228). -/
def maskedModule (pred : Nat → Nat → Bool) (c : Canvas) (x y : Nat) : Bool :=
  if !c.f.get x y && pred x y then !c.m.get x y else c.m.get x y

/-- `ApplyMask` (R228) for a mask given by its predicate. F is not changed. -/
def applyPred (pred : Nat → Nat → Bool) (c : Canvas) : Canvas :=
  { c with m := Grid.build c.size (maskedModule pred c) }

/-- `ApplyMask(k)` (R228). -/
def applyMask (k : Nat) (c : Canvas) : Canvas := applyPred (maskPred k) c

/-- A mask applied to the grids of the working state, and nothing else (R228). -/
def maskWork (pred : Nat → Nat → Bool) (s : State) : State :=
  setWork (withCanvas (applyPred pred (canvasOf s.work)) s.work) s

/-- MASK0 (R220, R228). -/
def execMask0 (s : State) : Out := .next (maskWork mask0Pred s)

/-- MASK1 (R221, R228). -/
def execMask1 (s : State) : Out := .next (maskWork mask1Pred s)

/-- MASK2 (R222, R228). -/
def execMask2 (s : State) : Out := .next (maskWork mask2Pred s)

/-- MASK3 (R223, R228). -/
def execMask3 (s : State) : Out := .next (maskWork mask3Pred s)

/-- MASK4 (R224, R228). -/
def execMask4 (s : State) : Out := .next (maskWork mask4Pred s)

/-- MASK5 (R225, R228). -/
def execMask5 (s : State) : Out := .next (maskWork mask5Pred s)

/-- MASK6 (R226, R228). -/
def execMask6 (s : State) : Out := .next (maskWork mask6Pred s)

/-- MASK7 (R227, R228). -/
def execMask7 (s : State) : Out := .next (maskWork mask7Pred s)

end Sys2Proof.Machine
end

