-- ==== Sys2Proof/Machine/MaskSelection.lean ====
section
/-! DEFINITION. The penalty score, the mask search and the final application, stages S9 MSEL and S10 FINAL
(spec/47_mask_and_penalty.md). -/

namespace Sys2Proof.Machine

/-- The lines of a grid: its rows, then its columns (R230). -/
def gridLines (size : Nat) (g : Grid) : List (List Bool) :=
  (List.range size).map g.row ++ (List.range size).map g.column

/-- The lengths of the maximal runs of equal adjacent values, after `n` values equal to `cur` (R230). -/
def runsFrom (cur : Bool) (n : Nat) : List Bool → List Nat
  | [] => [n]
  | b :: rest => if b = cur then runsFrom cur (n + 1) rest else n :: runsFrom b 1 rest

/-- The lengths of the maximal runs of a line. -/
def runLengths : List Bool → List Nat
  | [] => []
  | b :: rest => runsFrom b 1 rest

/-- What a run scores (R230). -/
def runScore (n : Nat) : Nat := if 5 ≤ n then 3 + (n - 5) else 0

/-- `PenaltyRuns(M)` (R230). -/
def penaltyRuns (size : Nat) (g : Grid) : Nat :=
  ((gridLines size g).map fun line => ((runLengths line).map runScore).sum).sum

/-- The score of the 2×2 blocks of two adjacent rows (R231). -/
def blockRowScore : List Bool → List Bool → Nat
  | a :: b :: as, c :: d :: cs => (if a = b ∧ b = c ∧ c = d then 3 else 0) + blockRowScore (b :: as) (d :: cs)
  | _, _ => 0

/-- `PenaltyBlocks(M)` (R231). -/
def penaltyBlocks (size : Nat) (g : Grid) : Nat :=
  ((List.range (size - 1)).map fun y => blockRowScore (g.row y) (g.row (y + 1))).sum

/-- The pattern P of R232. -/
def finderLike : List Bool := [true, false, true, true, true, false, true, false, false, false, false]

/-- The score of one window of 11 modules (R232). -/
def windowScore (n3Both : Bool) (w : List Bool) : Nat :=
  if w = finderLike then 40 else if n3Both ∧ w = finderLike.reverse then 40 else 0

/-- The score of the windows of a line (R232). -/
def windowsScore (n3Both : Bool) (size : Nat) (line : List Bool) : Nat :=
  ((List.range (size + 1 - 11)).map fun i => windowScore n3Both ((line.drop i).take 11)).sum

/-- `PenaltyFinderLike(M)` (R232). -/
def penaltyFinderLike (n3Both : Bool) (size : Nat) (g : Grid) : Nat :=
  ((gridLines size g).map (windowsScore n3Both size)).sum

/-- The number of dark modules. -/
def darkCount (g : Grid) : Nat := (g.rows.map fun row => row.count true).sum

/-- `PenaltyBalance(M)` (R233). -/
def penaltyBalance (n4Ceil : Bool) (size : Nat) (g : Grid) : Nat :=
  let total := size * size
  let d := (20 * (darkCount g : Int) - 10 * (total : Int)).natAbs
  10 * (if n4Ceil then (d + total - 1) / total - 1 else d / total)

/-- `Penalty(M)` (R234). -/
def penalty (cfg : Cfg) (size : Nat) (g : Grid) : Nat :=
  penaltyRuns size g + penaltyBlocks size g + penaltyFinderLike cfg.n3Both size g + penaltyBalance cfg.n4Ceil size g

/-- A candidate mask and its penalty replace the best so far only where strictly lower (R235, R236). -/
def better (best : Option (Nat × Nat)) (k p : Nat) : Option (Nat × Nat) :=
  match best with
  | none => some (k, p)
  | some (k', p') => if p < p' then some (k, p) else some (k', p')

/-- One round of R235's loop: apply the mask, draw its format bits, score, undo the mask. -/
def tryMask (cfg : Cfg) (l : Level) (acc : Canvas × Option (Nat × Nat)) (k : Nat) : Canvas × Option (Nat × Nat) :=
  let drawn := drawFormatBits l k (applyMask k acc.1)
  (applyMask k drawn, better acc.2 k (penalty cfg drawn.size drawn.m))

/-- `SelectMask()` (R235): the grids as the search leaves them, and the best mask with its penalty. -/
def selectMask (cfg : Cfg) (l : Level) (c : Canvas) : Canvas × Option (Nat × Nat) :=
  [0, 1, 2, 3, 4, 5, 6, 7].foldl (tryMask cfg l) (c, none)

/-- The working state after an automatic selection (R235). -/
def autoSelect (cfg : Cfg) (w : Work) : Work :=
  match selectMask cfg w.ecl (canvasOf w) with
  | (c, none) => withCanvas c w
  | (c, some (k, p)) => withCanvas c { w with bestMask := k, bestPen := p }

/-- S9 MSEL (R240): the automatic selection where FMASK is -1, or the forced mask, with no penalty (R237). -/
def execS9Msel (s : State) : Out :=
  if s.work.fmask = -1 then .next (setStage .s10 (setWork (autoSelect s.cfg s.work) s))
  else .next (setStage .s10 (setWork { s.work with bestMask := s.work.fmask.toNat } s))

/-- The grids with the winning mask and its format bits (R238). -/
def finalCanvas (w : Work) : Canvas := drawFormatBits w.ecl w.bestMask (applyMask w.bestMask (canvasOf w))

/-- The Symbol that S10 commits (R241). -/
def finalSym (w : Work) : Sym :=
  { valid := true, version := w.ver, ecl := w.ecl, size := sideOf w.ver, mask := w.bestMask, modules := (finalCanvas w).m }

/-- SYM committed, and with it STATUS.SYMV (R241; spec/10_state.md R33). -/
def commit (y : Sym) (s : State) : State := { s with sym := y }

/-- S10 FINAL (R241). -/
def execS10Final (s : State) : Out :=
  .next (setStage .s0 (commit (finalSym s.work) (setWork (withCanvas (finalCanvas s.work) s.work) s)))

end Sys2Proof.Machine
end

