-- ==== Sys2Proof/Machine/Placement.lean ====
section
/-! DEFINITION. The Matrix Builder's zig-zag codeword placement, stage S8 PLACE (spec/46_codeword_placement.md). -/

namespace Sys2Proof.Machine

/-- The right columns of the column pairs, from `right` on, in order (R210): the loop of R210 takes at most `fuel`
rounds, and column 6 is stepped over. -/
def pairColumns : Nat → Nat → List Nat
  | 0, _ => []
  | fuel + 1, right =>
    if right < 1 then []
    else
      let r := if right = 6 then 5 else right
      r :: pairColumns fuel (r - 2)

/-- The row met at position `vert` of a column pair: upward where `(right + 1) and 2` is 0 (R210). -/
def pairRow (size right vert : Nat) : Nat := if (right + 1) &&& 2 = 0 then size - 1 - vert else vert

/-- The cells of a column pair in order, right before left in each row (R210). -/
def pairCells (size right : Nat) : List (Nat × Nat) :=
  (List.range size).flatMap fun vert => [(right, pairRow size right vert), (right - 1, pairRow size right vert)]

/-- `ZigZag(F)` (R210): the cells that are not function modules, in placement order. -/
def zigzag (size : Nat) (f : Grid) : List (Nat × Nat) :=
  (pairColumns size (size - 1)).flatMap fun right => (pairCells size right).filter fun p => !f.get p.1 p.2

/-- The codeword bits placed on the cells of a path, one each in order (R211, R213); cells beyond the bits are left
alone (R212). -/
def placeBits (path : List (Nat × Nat)) (bits : List Bool) (m : Grid) : Grid :=
  (path.zip bits).foldl (fun m p => m.set p.1.1 p.1.2 p.2) m

/-- S8 PLACE (R213). -/
def execS8Place (s : State) : Out :=
  let path := zigzag (sideOf s.work.ver) s.work.f
  .next (setStage .s9 (setWork { s.work with m := placeBits path (bytesBits s.work.acw) s.work.m } s))

end Sys2Proof.Machine
end

