-- ==== Sys2Proof/Machine/SegmentBuilder.lean ====
section
/-! DEFINITION. The Segment Builder, stage S1 SEGB (spec/41_segment_builder.md). -/

namespace Sys2Proof.Machine

/-- A byte with given low bits under a lead (R136): `lead or (v and low)`. -/
def utf8Byte (lead low v : Nat) : Byte := BitVec.ofNat 8 (lead ||| (v &&& low))

/-- `Enc1(c)` (R131). -/
def enc1 (c : Nat) : List Byte := [BitVec.ofNat 8 c]

/-- `Enc2(c)` (R132). -/
def enc2 (c : Nat) : List Byte := [utf8Byte 0xC0 0x1F (c >>> 6), utf8Byte 0x80 0x3F c]

/-- `Enc3(c)` (R133). -/
def enc3 (c : Nat) : List Byte :=
  [utf8Byte 0xE0 0x0F (c >>> 12), utf8Byte 0x80 0x3F (c >>> 6), utf8Byte 0x80 0x3F c]

/-- `Enc4(cp)` (R134). -/
def enc4 (cp : Nat) : List Byte :=
  [utf8Byte 0xF0 0x07 (cp >>> 18), utf8Byte 0x80 0x3F (cp >>> 12), utf8Byte 0x80 0x3F (cp >>> 6), utf8Byte 0x80 0x3F cp]

/-- A high surrogate, 0xD800 to 0xDBFF (R134). -/
def isHighSurrogate (c : CodeUnit) : Bool := decide (0xD800 ≤ c.toNat) && decide (c.toNat ≤ 0xDBFF)

/-- A low surrogate, 0xDC00 to 0xDFFF (R134). -/
def isLowSurrogate (c : CodeUnit) : Bool := decide (0xDC00 ≤ c.toNat) && decide (c.toNat ≤ 0xDFFF)

/-- The code point of a surrogate pair (R134). -/
def pairCodePoint (c d : CodeUnit) : Nat := 0x10000 + ((c.toNat - 0xD800) <<< 10) + (d.toNat - 0xDC00)

/-- The bytes of a code unit that is not half of a pair: rules R131, R132, R133, and for an unpaired surrogate R137,
under which `none` is the raise of LONE_SURROGATE. -/
def encUnit (ls : LoneSurrogate) (c : CodeUnit) : Option (List Byte) :=
  if c.toNat < 0x80 then some (enc1 c.toNat)
  else if c.toNat < 0x800 then some (enc2 c.toNat)
  else if isHighSurrogate c || isLowSurrogate c then
    match ls with
    | .fault => none
    | .threeByte => some (enc3 c.toNat)
  else some (enc3 c.toNat)

/-- Bytes put before the bytes of the rest of a text, where neither raised. -/
def prependBytes (front rest : Option (List Byte)) : Option (List Byte) :=
  match front, rest with
  | some bs, some cs => some (bs ++ cs)
  | _, _ => none

/-- `Utf8Expand(units)` (R130). A high surrogate directly before a low one is taken with it (R134). -/
def utf8Expand (ls : LoneSurrogate) : List CodeUnit → Option (List Byte)
  | [] => some []
  | [c] => encUnit ls c
  | c :: d :: rest =>
    if isHighSurrogate c && isLowSurrogate d then prependBytes (some (enc4 (pairCodePoint c d))) (utf8Expand ls rest)
    else prependBytes (encUnit ls c) (utf8Expand ls (d :: rest))

/-- `MakeByteSegment(bytes)` (R138). -/
def makeByteSegment (bs : List Byte) : Segment := { numChars := bs.length, bits := bytesBits bs }

/-- The segment list that S1 makes of a text: exactly one byte segment, for the empty text too (R135, R139). -/
def textSegments (ls : LoneSurrogate) (units : List CodeUnit) : Option (List Segment) :=
  match utf8Expand ls units with
  | none => none
  | some bs => some [makeByteSegment bs]

/-- S1 SEGB (R135). -/
def execS1Segb (s : State) : Out :=
  if s.cfg.textMax < s.textlen.toNat then .next (raise .lenRange s)
  else
    match s.text.readRun 0 s.textlen.toNat with
    | .error i => .refused (.unwrittenElement .text i)
    | .ok units =>
      match textSegments s.cfg.loneSurrogate units with
      | none => .next (raise .loneSurrogate s)
      | some segs => .next (setStage .s2 (setWork { s.work with segs := segs } s))

end Sys2Proof.Machine
end

