-- ==== Sys2Proof/Machine/VersionSelector.lean ====
section
/-! DEFINITION. The Capacity/Version Selector, stages S2 VSEL and S3 BOOST (spec/42_version_selector.md). -/

namespace Sys2Proof.Machine

/-- S2 VSEL (R147, R150). -/
def execS2Vsel (s : State) : Out :=
  match firstFit s.work.segs s.work.reqEcl s.work.minv s.work.maxv with
  | none => .next (raise .noVersionFits s)
  | some (v, t) => .next (setStage .s3 (setWork { s.work with ver := v, used := t, ecl := s.work.reqEcl } s))

/-- The final level (R148). -/
def finalLevel (w : Work) : Level := if w.boosten then boostLevel w.ver w.used w.ecl else w.ecl

/-- S3 BOOST (R148). -/
def execS3Boost (s : State) : Out :=
  .next (setStage .s4 (setWork { s.work with ecl := finalLevel s.work } s))

end Sys2Proof.Machine
end

