-- ==== Sys2Proof/Machine/Commands.lean ====
section
/-! DEFINITION. The host commands ENCTXT, ENCSEG, GETMOD, the stage S11 GETM and the illegal word
(spec/49_commands.md). -/

namespace Sys2Proof.Machine

/-- Stages S2 to S10, in order (R261, R262). -/
def runFromS2 (s : State) : Out :=
  andThen (andThen (andThen (andThen (andThen (andThen (andThen (andThen
    (execS2Vsel s) execS3Boost) execS4Asm) execS5Rsenc) execS6Ilv) execS7Fpat) execS8Place) execS9Msel) execS10Final

/-- `RunEncTxt(ecc)` (R261): the operands of R101, then stages S1 to S10. -/
def runEncTxt (ecc : Level) (s : State) : Out :=
  andThen (execS1Segb (setStage .s1 (latchOperands ecc 1 40 (-1) true s))) runFromS2

/-- ENCTXT (R260, R261). -/
def execEnctxt (ecc : Level) (s : State) : Out :=
  finish (runEncTxt ecc (startEncode (encodeEnctxt ecc) s))

/-- The segment list of ENCSEG (R262): the lengths are checked on SEGTAB alone, before SEGDATA is read
(spec/20_memory.md R75). DESIGN CHOICE: where it raises, SEGS is left as it was (notes/assumptions/16.md). -/
def loadSegments (s : State) (k : List Segment → Out) : Out :=
  if s.cfg.segMax < s.nseg.toNat then .next (raise .lenRange s)
  else
    match s.segtab.readRun 0 s.nseg.toNat with
    | .error i => .refused (.unwrittenElement .segtab i)
    | .ok tab =>
      if 8 * s.cfg.segdataBytes < totalBitLen tab then .next (raise .lenRange s)
      else
        match s.segdata.readRun 0 ((totalBitLen tab + 7) / 8) with
        | .error i => .refused (.unwrittenElement .segdata i)
        | .ok bytes => k (cutSegments tab (bytesBits bytes))

/-- The version operands of ENCSEG are in 1..40 (R262). -/
abbrev VersionsInRange (minv maxv : Nat) : Prop := (1 ≤ minv ∧ minv ≤ 40) ∧ 1 ≤ maxv ∧ maxv ≤ 40

/-- The mask operand of ENCSEG is in -1..7 (R262). -/
abbrev MaskInRange (mask : Int) : Prop := -1 ≤ mask ∧ mask ≤ 7

/-- `RunEncSeg(ecc, minv, maxv, mask, boost)` (R262), its checks in the order of spec/60_exceptions.md R292. -/
def runEncSeg (ecc : Level) (minv maxv : Nat) (mask : Int) (boost : Bool) (s : State) : Out :=
  if ¬VersionsInRange minv maxv then .next (raise .versionRange s)
  else if ¬MaskInRange mask then .next (raise .maskRange s)
  else
    loadSegments s fun segs =>
      runFromS2 (setStage .s2 (latchOperands ecc minv maxv mask boost (setWork { s.work with segs := segs } s)))

/-- ENCSEG (R260, R262). -/
def execEncseg (ecc : Level) (minv maxv : Nat) (mask : Int) (boost : Bool) (s : State) : Out :=
  finish (runEncSeg ecc minv maxv mask boost (startEncode (encodeEncseg ecc minv maxv mask boost) s))

/-- The size GETMOD checks against: 0 where no Symbol is held (R263). -/
def heldSize (y : Sym) : Nat := if y.valid then y.size else 0

/-- The coordinates name a module of the held Symbol (R263). -/
abbrev CoordsInGrid (y : Sym) (px py : Int) : Prop :=
  (0 ≤ px ∧ px < heldSize y) ∧ 0 ≤ py ∧ py < heldSize y

/-- RESULT.MOD (spec/10_state.md R27). -/
def setResult (b : Bool) (s : State) : State := { s with result := b }

/-- The read of one module of SYM (R263), which ends the command's stages (spec/10_state.md R40: S11 → S0). -/
def getModule (px py : Int) (s : State) : Out :=
  if CoordsInGrid s.sym px py then .next (setStage .s0 (setResult (s.sym.modules.get px.toNat py.toNat) s))
  else .next (raise .coordRange s)

/-- S11 GETM (R263): the coordinates are the fields of the word in CMD (spec/30_encoding.md R95). -/
def execS11Getm (s : State) : Out := getModule (coordX s.cmd) (coordY s.cmd) s

/-- GETMOD (R260, R263). -/
def execGetmod (px py : Int) (s : State) : Out :=
  finish (getModule px py (setStage .s11 (startCommand (encodeGetmod px py) s)))

/-- A word that is no command (R264): R260's start, then the raise of ILLEGAL_CMD. SYM and RESULT stay. -/
def illegalCommand (w : Word) (s : State) : State := raise .illegalCmd (startCommand w s)

end Sys2Proof.Machine
end

