-- ==== Sys2Proof/Machine/Levels.lean ====
section
/-! DEFINITION. The four level values of the table (spec/10_state.md R35; spec/30_encoding.md R107), each with its
meaning as a table row: the requested level latched at a command's start, `REQ_ECL <- ecc` (spec/49_commands.md R261,
R262; notes/assumptions/7.md). Its Fmt value is `fmt` (R250), its ordinal `Level.ord`. -/

namespace Sys2Proof.Machine

/-- ECC.LOW. -/
def execEccLow (s : State) : Out := .next (latchLevel .low s)

/-- ECC.MEDIUM. -/
def execEccMedium (s : State) : Out := .next (latchLevel .medium s)

/-- ECC.QUARTILE. -/
def execEccQuartile (s : State) : Out := .next (latchLevel .quartile s)

/-- ECC.HIGH. -/
def execEccHigh (s : State) : Out := .next (latchLevel .high s)

end Sys2Proof.Machine
end

