-- ==== Sys2Proof/Machine/Dispatch.lean ====
section
/-! DEFINITION. One arm per instruction of Syntax.lean, each one call of its meaning. -/

namespace Sys2Proof.Machine

def exec (i : Instr) (s : State) : Host.Outcome State Fault Refusal :=
  match i with
  | .enctxt ecc => Sys2Proof.Machine.execEnctxt ecc s
  | .encseg ecc minv maxv mask boost => Sys2Proof.Machine.execEncseg ecc minv maxv mask boost s
  | .getmod x y => Sys2Proof.Machine.execGetmod x y s
  | .s1Segb => Sys2Proof.Machine.execS1Segb s
  | .s2Vsel => Sys2Proof.Machine.execS2Vsel s
  | .s3Boost => Sys2Proof.Machine.execS3Boost s
  | .s4Asm => Sys2Proof.Machine.execS4Asm s
  | .s5Rsenc => Sys2Proof.Machine.execS5Rsenc s
  | .s6Ilv => Sys2Proof.Machine.execS6Ilv s
  | .s7Fpat => Sys2Proof.Machine.execS7Fpat s
  | .s8Place => Sys2Proof.Machine.execS8Place s
  | .s9Msel => Sys2Proof.Machine.execS9Msel s
  | .s10Final => Sys2Proof.Machine.execS10Final s
  | .s11Getm => Sys2Proof.Machine.execS11Getm s
  | .mask0 => Sys2Proof.Machine.execMask0 s
  | .mask1 => Sys2Proof.Machine.execMask1 s
  | .mask2 => Sys2Proof.Machine.execMask2 s
  | .mask3 => Sys2Proof.Machine.execMask3 s
  | .mask4 => Sys2Proof.Machine.execMask4 s
  | .mask5 => Sys2Proof.Machine.execMask5 s
  | .mask6 => Sys2Proof.Machine.execMask6 s
  | .mask7 => Sys2Proof.Machine.execMask7 s
  | .eccLow => Sys2Proof.Machine.execEccLow s
  | .eccMedium => Sys2Proof.Machine.execEccMedium s
  | .eccQuartile => Sys2Proof.Machine.execEccQuartile s
  | .eccHigh => Sys2Proof.Machine.execEccHigh s

end Sys2Proof.Machine
end

