-- ==== Sys2Proof/Machine/Interface.lean ====
section
/-! DEFINITION. The host's accesses as steps (spec/20_memory.md R61, R62), and the course of the stages while a command
is executing (spec/10_state.md R40). -/

namespace Sys2Proof.Machine

/-- The value of STAGE (R97). -/
def Stage.code : Stage → BitVec 4
  | .s0 => 0
  | .s1 => 1
  | .s2 => 2
  | .s3 => 3
  | .s4 => 4
  | .s5 => 5
  | .s6 => 6
  | .s7 => 7
  | .s8 => 8
  | .s9 => 9
  | .s10 => 10
  | .s11 => 11

/-- The stage with a given value; S0 for the values that are never taken. -/
def stageOfCode : Nat → Stage
  | 1 => .s1
  | 2 => .s2
  | 3 => .s3
  | 4 => .s4
  | 5 => .s5
  | 6 => .s6
  | 7 => .s7
  | 8 => .s8
  | 9 => .s9
  | 10 => .s10
  | 11 => .s11
  | _ => .s0

/-- `Execute(w)`: a host write of CMD (spec/49_commands.md R260). -/
def executeCommand (w : Word) (s : State) : Out :=
  match decode (.command w) with
  | .error _ => .next (illegalCommand w s)
  | .ok i => exec i s

/-- The rest of a command that is executing: the operation STAGE selects (R97), or, once the stages are through, the
completion of R260. No state that a run from reset reaches is in the middle of a command (notes/assumptions/8.md). -/
def advance (s : State) : Out :=
  match decode (.stage s.stage.code) with
  | .error _ => .next (complete s)
  | .ok i => exec i s

/-- The data of a host read, returned. -/
def returnData (vs : List Word) (s : State) : State := { s with readData := vs }

/-- An access to n elements of a buffer from index a, which must all exist (R61, R62). -/
def elementAccess (space : Space) (a n : Nat) (s : State) (t : State) : Out :=
  if a + n ≤ s.cfg.elements space then .next t else .fault (.noSuchElement space a n)

/-- One access of the host, already taken from the queue. -/
def hostStep (act : HostAction) (s : State) : Out :=
  match act with
  | .readReg i => .next (returnData [readReg i s] s)
  | .writeReg i v => if i = 0 then executeCommand v s else .next (writeReg i v s)
  | .readElements sp a n => elementAccess sp a n s (returnData ((List.range' a n).map fun i => readElement sp i s) s)
  | .writeText a vs => elementAccess .text a vs.length s { s with text := s.text.writeRun a vs }
  | .writeSegtab a vs => elementAccess .segtab a vs.length s { s with segtab := s.segtab.writeRun a vs }
  | .writeSegdata a vs => elementAccess .segdata a vs.length s { s with segdata := s.segdata.writeRun a vs }
  | .reset => .next (hostReset s.pending s)

/-- The next of the host's accesses, or nothing where there is none: S0 IDLE "waits for a CMD write" (R40). -/
def nextAccess (s : State) : Out :=
  match s.pending with
  | [] => .next s
  | act :: rest => hostStep act { s with pending := rest }

/-- The host's next action is a reset, which takes effect even while a command is executing
(spec/70_reset_and_hazards.md R310). -/
def resetPending (s : State) : Bool :=
  match s.pending with
  | .reset :: _ => true
  | _ => false

/-- A state whose next step runs the instruction of a code: a command word is the host's next write of CMD, a stage
code is the value of STAGE in a command that is executing. A mask index and a level are operand fields, which no step
fetches: for them the state stays. -/
def placeCode (c : Code) (s : State) : State :=
  match c with
  | .command w => { s with busy := false, pending := .writeReg 0 w :: s.pending }
  | .stage k => { s with busy := true, stage := stageOfCode k.toNat, pending := [] }
  | .maskIndex _ => s
  | .level _ => s

end Sys2Proof.Machine
end

