-- ==== Sys2Proof/Machine/Step.lean ====
section
/-! DEFINITION. One step: a whole command or host access where QRSE is idle (spec/10_state.md R40), the next stage
where a command is executing. -/

namespace Sys2Proof.Machine

/-- One step. While BUSY is 0 it is the host's next access, a CMD write being a whole command (R40, R260). While BUSY
is 1 no access is taken but a reset (spec/70_reset_and_hazards.md R310, R314). -/
def step (s : State) : Host.Outcome State Fault Refusal :=
  if s.busy && !resetPending s then advance s else nextAccess s

/-- The state with an instruction placed where the next step takes it from (notes/assumptions/5.md). -/
def State.withFetchWord (s : State) (nbits w : Nat) : State :=
  match codeOfTableWord nbits w with
  | none => s
  | some c => placeCode c s

end Sys2Proof.Machine
end

