-- ==== Sys2Proof/Safety.lean ====
section
/-! DEFINITION. The terms that claims about QRSE use: what its invariant is, what a buffer holds, the symbol that the
rules give for a segment list, and the run of the stages of one command. -/

namespace Sys2Proof.Machine

/-! ### Well-formed states -/

/-- A held Symbol is one (spec/10_state.md R33; spec/00_scope.md R9). -/
def Sym.Wf (y : Sym) : Prop :=
  (1 ≤ y.version ∧ y.version ≤ 40) ∧ y.size = sideOf y.version ∧ y.mask ≤ 7 ∧ y.modules.square y.size = true

/-- The ranges of the working registers (R41). -/
def Work.Wf (w : Work) : Prop :=
  (1 ≤ w.ver ∧ w.ver ≤ 40) ∧ (1 ≤ w.minv ∧ w.minv ≤ 40) ∧ (1 ≤ w.maxv ∧ w.maxv ≤ 40) ∧ (-1 ≤ w.fmask ∧ w.fmask ≤ 7)
    ∧ w.bestMask ≤ 7

/-- M and F are grids of side 4·VER + 17 (R41). -/
def Work.GridsDrawn (w : Work) : Prop := w.m.square (sideOf w.ver) = true ∧ w.f.square (sideOf w.ver) = true

/-- A buffer in canonical form that lists only elements that exist (spec/20_memory.md R60). -/
def Buffer.Wf {w : Nat} (b : Buffer w) (elements : Nat) : Prop :=
  b.wf = true ∧ ∀ i v, b.read i = some v → i < elements

/-- ERRCODE holds 0 with STATUS.ERR 0, or the code of a cause with STATUS.ERR 1 (R24, R280). -/
def State.ErrorsAgree (s : State) : Prop :=
  (s.err = false ∧ s.errcode = 0) ∨ (s.err = true ∧ s.done = true ∧ ∃ c : Cause, s.errcode = c.code)

/-- The invariant of QRSE: legal configuration, canonical buffers, a held Symbol that is one, working registers in
range; while idle, STAGE is S0 and the error registers agree; while a command executes, ERR is 0 and from S8 on the
grids are drawn. -/
structure State.Inv (s : State) : Prop where
  cfg     : s.cfg.Wf
  text    : s.text.Wf s.cfg.textMax
  segtab  : s.segtab.Wf s.cfg.segMax
  segdata : s.segdata.Wf s.cfg.segdataBytes
  sym     : s.sym.valid = true → s.sym.Wf
  work    : s.work.Wf
  idle    : s.busy = false → s.stage = .s0 ∧ s.ErrorsAgree
  running : s.busy = true → s.err = false
  drawn   : s.busy = true → (s.stage = .s8 ∨ s.stage = .s9 ∨ s.stage = .s10) → s.work.GridsDrawn

/-! ### Buffers -/

/-- A buffer holds a run of written values from index `a`. -/
def Buffer.Holds {w : Nat} (b : Buffer w) (a : Nat) (vs : List (BitVec w)) : Prop :=
  ∀ k, k < vs.length → b.read (a + k) = vs[k]?

/-- A buffer differs from another by a run of values written from index `a`, and in nothing else. -/
def Buffer.WrittenRun {w : Nat} (b b' : Buffer w) (a : Nat) (vs : List (BitVec w)) : Prop :=
  b'.Holds a vs ∧ ∀ i, i < a ∨ a + vs.length ≤ i → b'.read i = b.read i

/-- Everything the host writes, and what the model keeps of the host's side, is the same in two states. -/
def SameHostSide (s t : State) : Prop :=
  t.cfg = s.cfg ∧ t.textlen = s.textlen ∧ t.nseg = s.nseg ∧ t.text = s.text ∧ t.segtab = s.segtab
    ∧ t.segdata = s.segdata ∧ t.pending = s.pending ∧ t.readData = s.readData ∧ t.epoch = s.epoch

/-! ### Text -/

/-- An unpaired surrogate at position i (spec/41_segment_builder.md R137): a high surrogate with no low one after it, or
a low surrogate with no high one before it. -/
def UnpairedAt (u : List CodeUnit) (i : Nat) : Prop :=
  (∃ c, u[i]? = some c ∧ isHighSurrogate c = true ∧ ∀ d, u[i + 1]? = some d → isLowSurrogate d = false)
    ∨ ∃ c, u[i]? = some c ∧ isLowSurrogate c = true
        ∧ ∀ j d, i = j + 1 → u[j]? = some d → isHighSurrogate d = false

/-- The largest number of text bytes that version 40 holds at a level (spec/42_version_selector.md R151). -/
def maxTextBytes : Level → Nat
  | .low => 2953
  | .medium => 2331
  | .quartile => 1663
  | .high => 1273

/-! ### The tables the spec prints -/

/-- The four levels in the order of the spec's tables (spec/10_state.md R35). -/
def allLevels : List Level := [.low, .medium, .quartile, .high]

/-- The table under spec/42_version_selector.md R145, row by row: v, size, RawModules, R, remainder bits, then for LOW,
MEDIUM, QUARTILE, HIGH the values of E, of B and of DataCodewords. -/
def capacityTable : List (List Nat) :=
  [[1, 21, 208, 26, 0, 7, 10, 13, 17, 1, 1, 1, 1, 19, 16, 13, 9],
    [2, 25, 359, 44, 7, 10, 16, 22, 28, 1, 1, 1, 1, 34, 28, 22, 16],
    [3, 29, 567, 70, 7, 15, 26, 18, 22, 1, 1, 2, 2, 55, 44, 34, 26],
    [4, 33, 807, 100, 7, 20, 18, 26, 16, 1, 2, 2, 4, 80, 64, 48, 36],
    [5, 37, 1079, 134, 7, 26, 24, 18, 22, 1, 2, 4, 4, 108, 86, 62, 46],
    [6, 41, 1383, 172, 7, 18, 16, 24, 28, 2, 4, 4, 4, 136, 108, 76, 60],
    [7, 45, 1568, 196, 0, 20, 18, 18, 26, 2, 4, 6, 5, 156, 124, 88, 66],
    [8, 49, 1936, 242, 0, 24, 22, 22, 26, 2, 4, 6, 6, 194, 154, 110, 86],
    [9, 53, 2336, 292, 0, 30, 22, 20, 24, 2, 5, 8, 8, 232, 182, 132, 100],
    [10, 57, 2768, 346, 0, 18, 26, 24, 28, 4, 5, 8, 8, 274, 216, 154, 122]] ++
  [[11, 61, 3232, 404, 0, 20, 30, 28, 24, 4, 5, 8, 11, 324, 254, 180, 140],
    [12, 65, 3728, 466, 0, 24, 22, 26, 28, 4, 8, 10, 11, 370, 290, 206, 158],
    [13, 69, 4256, 532, 0, 26, 22, 24, 22, 4, 9, 12, 16, 428, 334, 244, 180],
    [14, 73, 4651, 581, 3, 30, 24, 20, 24, 4, 9, 16, 16, 461, 365, 261, 197],
    [15, 77, 5243, 655, 3, 22, 24, 30, 24, 6, 10, 12, 18, 523, 415, 295, 223],
    [16, 81, 5867, 733, 3, 24, 28, 24, 30, 6, 10, 17, 16, 589, 453, 325, 253],
    [17, 85, 6523, 815, 3, 28, 28, 28, 28, 6, 11, 16, 19, 647, 507, 367, 283],
    [18, 89, 7211, 901, 3, 30, 26, 28, 28, 6, 13, 18, 21, 721, 563, 397, 313],
    [19, 93, 7931, 991, 3, 28, 26, 26, 26, 7, 14, 21, 25, 795, 627, 445, 341],
    [20, 97, 8683, 1085, 3, 28, 26, 30, 28, 8, 16, 20, 25, 861, 669, 485, 385]] ++
  [[21, 101, 9252, 1156, 4, 28, 26, 28, 30, 8, 17, 23, 25, 932, 714, 512, 406],
    [22, 105, 10068, 1258, 4, 28, 28, 30, 24, 9, 17, 23, 34, 1006, 782, 568, 442],
    [23, 109, 10916, 1364, 4, 30, 28, 30, 30, 9, 18, 25, 30, 1094, 860, 614, 464],
    [24, 113, 11796, 1474, 4, 30, 28, 30, 30, 10, 20, 27, 32, 1174, 914, 664, 514],
    [25, 117, 12708, 1588, 4, 26, 28, 30, 30, 12, 21, 29, 35, 1276, 1000, 718, 538],
    [26, 121, 13652, 1706, 4, 28, 28, 28, 30, 12, 23, 34, 37, 1370, 1062, 754, 596],
    [27, 125, 14628, 1828, 4, 30, 28, 30, 30, 12, 25, 34, 40, 1468, 1128, 808, 628],
    [28, 129, 15371, 1921, 3, 30, 28, 30, 30, 13, 26, 35, 42, 1531, 1193, 871, 661],
    [29, 133, 16411, 2051, 3, 30, 28, 30, 30, 14, 28, 38, 45, 1631, 1267, 911, 701],
    [30, 137, 17483, 2185, 3, 30, 28, 30, 30, 15, 29, 40, 48, 1735, 1373, 985, 745]] ++
  [[31, 141, 18587, 2323, 3, 30, 28, 30, 30, 16, 31, 43, 51, 1843, 1455, 1033, 793],
    [32, 145, 19723, 2465, 3, 30, 28, 30, 30, 17, 33, 45, 54, 1955, 1541, 1115, 845],
    [33, 149, 20891, 2611, 3, 30, 28, 30, 30, 18, 35, 48, 57, 2071, 1631, 1171, 901],
    [34, 153, 22091, 2761, 3, 30, 28, 30, 30, 19, 37, 51, 60, 2191, 1725, 1231, 961],
    [35, 157, 23008, 2876, 0, 30, 28, 30, 30, 19, 38, 53, 63, 2306, 1812, 1286, 986],
    [36, 161, 24272, 3034, 0, 30, 28, 30, 30, 20, 40, 56, 66, 2434, 1914, 1354, 1054],
    [37, 165, 25568, 3196, 0, 30, 28, 30, 30, 21, 43, 59, 70, 2566, 1992, 1426, 1096],
    [38, 169, 26896, 3362, 0, 30, 28, 30, 30, 22, 45, 62, 74, 2702, 2102, 1502, 1142],
    [39, 173, 28256, 3532, 0, 30, 28, 30, 30, 24, 47, 65, 77, 2812, 2216, 1582, 1222],
    [40, 177, 29648, 3706, 0, 30, 28, 30, 30, 25, 49, 68, 81, 2956, 2334, 1666, 1276]]

/-- A version's row as the model computes it. -/
def capacityRow (v : Nat) : List Nat :=
  [v, sideOf v, rawModules v, rawCodewords v, rawModules v % 8]
    ++ allLevels.map (fun l => eccPerBlock l v) ++ allLevels.map (fun l => numBlocks l v)
    ++ allLevels.map (dataCodewords v)

/-- The table under spec/45_function_patterns.md R194, versions 1 to 40. -/
def alignmentTable : List (List Nat) :=
  [[], [6, 18], [6, 22], [6, 26], [6, 30], [6, 34], [6, 22, 38], [6, 24, 42], [6, 26, 46], [6, 28, 50]] ++
  [[6, 30, 54], [6, 32, 58], [6, 34, 62], [6, 26, 46, 66], [6, 26, 48, 70], [6, 26, 50, 74], [6, 30, 54, 78],
    [6, 30, 56, 82], [6, 30, 58, 86], [6, 34, 62, 90]] ++
  [[6, 28, 50, 72, 94], [6, 26, 50, 74, 98], [6, 30, 54, 78, 102], [6, 28, 54, 80, 106], [6, 32, 58, 84, 110],
    [6, 30, 58, 86, 114], [6, 34, 62, 90, 118], [6, 26, 50, 74, 98, 122], [6, 30, 54, 78, 102, 126],
    [6, 26, 52, 78, 104, 130]] ++
  [[6, 30, 56, 82, 108, 134], [6, 34, 60, 86, 112, 138], [6, 30, 58, 86, 114, 142], [6, 34, 62, 90, 118, 146],
    [6, 30, 54, 78, 102, 126, 150], [6, 24, 50, 76, 102, 128, 154], [6, 28, 54, 80, 106, 132, 158],
    [6, 32, 58, 84, 110, 136, 162], [6, 26, 54, 82, 110, 138, 166], [6, 30, 58, 86, 114, 142, 170]]

/-! ### The symbol of a segment list -/

/-- What a segment contributes to the bit stream (spec/30_encoding.md R102). -/
def segmentBits (v : Nat) (s : Segment) : List Bool :=
  bitsMSB 4 4 ++ bitsMSB s.numChars (countFieldWidth v) ++ s.bits

/-- The bit stream of a segment list before padding (R102). -/
def dataStream (v : Nat) (segs : List Segment) : List Bool := segs.flatMap (segmentBits v)

/-- Every character count fits the count field of a version (spec/42_version_selector.md R146). -/
def CountsFit (v : Nat) (segs : List Segment) : Prop := ∀ s ∈ segs, s.numChars < 2 ^ countFieldWidth v

/-- A segment list fits a version at a level (R146, R147). -/
def Fits (segs : List Segment) (l : Level) (v : Nat) : Prop :=
  CountsFit v segs ∧ (dataStream v segs).length ≤ dataCapacityBits v l

/-- The data codewords of a segment list (R103). -/
def streamCodewords (v : Nat) (l : Level) (segs : List Segment) : List Byte :=
  pack8 (padStream (dataCapacityBits v l) (dataStream v segs)) (dataCodewords v l)

/-- The final codeword sequence of a segment list (R104). -/
def finalCodewords (v : Nat) (l : Level) (segs : List Segment) : List Byte :=
  interleave v l (makeBlocks v l (streamCodewords v l segs))

/-- The grids with the function patterns drawn and the codewords placed, before any mask. -/
def placedCanvas (v : Nat) (l : Level) (segs : List Segment) : Canvas :=
  let c := functionPatterns v
  { c with m := placeBits (zigzag c.size c.f) (bytesBits (finalCodewords v l segs)) c.m }

/-- The grids under a candidate mask with its format bits, on a copy of their own (spec/47_mask_and_penalty.md R239). -/
def candidate (l : Level) (c : Canvas) (k : Nat) : Canvas := drawFormatBits l k (applyMask k c)

/-- The penalty of a candidate mask (R234, R239). -/
def candidatePenalty (cfg : Cfg) (l : Level) (c : Canvas) (k : Nat) : Nat := penalty cfg c.size (candidate l c k).m

/-- The lowest of the masks 0..7 with the lowest penalty (R236, R239). -/
def IsFirstBest (p : Nat → Nat) (k : Nat) : Prop :=
  k ≤ 7 ∧ (∀ j, j ≤ 7 → p k ≤ p j) ∧ ∀ j, j < k → p k < p j

/-- The mask of a symbol: the forced one, or the selected one where the operand is -1 (R235, R237). -/
def IsMaskChoice (cfg : Cfg) (mask : Int) (l : Level) (c : Canvas) (k : Nat) : Prop :=
  if mask = -1 then IsFirstBest (candidatePenalty cfg l c) k else (k : Int) = mask

/-- The Symbol of a segment list at a version and level under a mask, as the rules give it stage by stage. -/
def symbolOf (v : Nat) (l : Level) (segs : List Segment) (k : Nat) : Sym :=
  { valid := true, version := v, ecl := l, size := sideOf v, mask := k,
    modules := (candidate l (placedCanvas v l segs) k).m }

/-- The level after boosting (spec/42_version_selector.md R148): the highest level that holds the bits at the version,
not below the requested one; without boosting, the requested one. -/
def IsFinalLevel (v used : Nat) (ecc : Level) (boost : Bool) (l : Level) : Prop :=
  if boost then
    used ≤ dataCapacityBits v l ∧ ecc.ord.toNat ≤ l.ord.toNat
      ∧ ∀ m, used ≤ dataCapacityBits v m → m.ord.toNat ≤ l.ord.toNat
  else l = ecc

/-- The Symbol that `encodeSegments` gives (spec/30_encoding.md R100), where some version fits: the first fitting
version, the boosted level, the chosen mask. -/
def IsSymbolOf (cfg : Cfg) (segs : List Segment) (ecc : Level) (minv maxv : Nat) (mask : Int) (boost : Bool)
    (y : Sym) : Prop :=
  ∃ v l k, (minv ≤ v ∧ v ≤ maxv ∧ Fits segs ecc v ∧ ∀ u, minv ≤ u → u < v → ¬Fits segs ecc u)
    ∧ IsFinalLevel v (dataStream v segs).length ecc boost l
    ∧ IsMaskChoice cfg mask l (placedCanvas v l segs) k ∧ y = symbolOf v l segs k

/-- A command's end as the host sees it: idle, with no error (spec/49_commands.md R260). -/
def EndsWell (t : State) : Prop :=
  t.busy = false ∧ t.stage = .s0 ∧ t.done = true ∧ t.err = false ∧ t.errcode = 0

/-- A command's end after a raise: idle, with the error of a cause (spec/60_exceptions.md R284). -/
def EndsRaised (c : Cause) (t : State) : Prop :=
  t.busy = false ∧ t.stage = .s0 ∧ t.done = true ∧ t.err = true ∧ t.errcode = c.code

/-! ### Cells -/

/-- The 15 cells of the first format path, bit 0 first (spec/48_format_version_info.md R252, the table). -/
def formatPath1 : List (Nat × Nat) :=
  [(8, 0), (8, 1), (8, 2), (8, 3), (8, 4), (8, 5), (8, 7), (8, 8), (7, 8), (5, 8), (4, 8), (3, 8), (2, 8), (1, 8), (0, 8)]

/-- The 15 cells of the second format path, bit 0 first (R252, the table). -/
def formatPath2 (n : Nat) : List (Nat × Nat) :=
  [(n - 1, 8), (n - 2, 8), (n - 3, 8), (n - 4, 8), (n - 5, 8), (n - 6, 8), (n - 7, 8), (n - 8, 8), (8, n - 7), (8, n - 6),
    (8, n - 5), (8, n - 4), (8, n - 3), (8, n - 2), (8, n - 1)]

/-- A cell of the format-information zone or the dark module (spec/45_function_patterns.md R196). -/
def IsFormatCell (n x y : Nat) : Prop := (x, y) ∈ formatPath1 ∨ (x, y) ∈ formatPath2 n ∨ (x, y) = (8, n - 8)

/-- A cell of an alignment pattern (R195): within two modules of a centre, the pair of positions no finder corner. -/
def IsAlignmentCell (v x y : Nat) : Prop :=
  ∃ cx ∈ alignPos v, ∃ cy ∈ alignPos v,
    ¬((cx = 6 ∧ cy = 6) ∨ (cx = 6 ∧ cy = 4 * v + 10) ∨ (cx = 4 * v + 10 ∧ cy = 6))
      ∧ (cx ≤ x + 2 ∧ x ≤ cx + 2) ∧ cy ≤ y + 2 ∧ y ≤ cy + 2

/-- A cell of one of the three finder squares with their separators, in a grid of side n (R192). -/
def IsFinderCell (n x y : Nat) : Prop :=
  (x < 8 ∧ y < 8) ∨ (n - 8 ≤ x ∧ x < n ∧ y < 8) ∨ (x < 8 ∧ n - 8 ≤ y ∧ y < n)

/-- A cell of the timing row or column (R193). -/
def IsTimingCell (n x y : Nat) : Prop := (x < n ∧ y = 6) ∨ (x = 6 ∧ y < n)

/-- A cell of one of the two version blocks, of version 7 and above only (R197). -/
def IsVersionCell (v x y : Nat) : Prop :=
  7 ≤ v ∧ ((4 * v + 6 ≤ x ∧ x ≤ 4 * v + 8 ∧ y ≤ 5) ∨ (x ≤ 5 ∧ 4 * v + 6 ≤ y ∧ y ≤ 4 * v + 8))

/-- The function modules of a version, all of them (R198). -/
def IsFunctionCell (v x y : Nat) : Prop :=
  IsFinderCell (4 * v + 17) x y ∨ IsTimingCell (4 * v + 17) x y ∨ IsAlignmentCell v x y
    ∨ IsFormatCell (4 * v + 17) x y ∨ IsVersionCell v x y

/-- The right column of the column pair that holds a column other than 6 (spec/46_codeword_placement.md R210): even to
the right of column 6, odd to its left. -/
def pairRightOf (x : Nat) : Nat := if 6 < x then x + x % 2 else x + (1 - x % 2)

/-- The order of R210 on cells: the larger column pair first; in a pair the rows upward where `(right + 1) and 2` is 0 and
else downward; in a row the right column before the left. -/
def PathBefore (p q : Nat × Nat) : Prop :=
  pairRightOf q.1 < pairRightOf p.1
    ∨ (pairRightOf p.1 = pairRightOf q.1
      ∧ ((if (pairRightOf p.1 + 1) &&& 2 = 0 then q.2 < p.2 else p.2 < q.2) ∨ (p.2 = q.2 ∧ q.1 < p.1)))

/-! ### GF(256) -/

/-- The powers of 0x02 (spec/44_reed_solomon.md R181). -/
def gfPow : Nat → Byte
  | 0 => 1
  | n + 1 => gfMul (gfPow n) 0x02

/-- The value of a polynomial, its first coefficient the highest, at a field element (R178). -/
def gfEval (p : List Byte) (x : Byte) : Byte := p.foldl (fun acc c => gfMul acc x ^^^ c) 0

/-! ### The stages of a command, one by one -/

/-- The stages that are left of a command, at most `n` of them, each as a step of its own (spec/10_state.md R40). -/
def runStages : Nat → State → Out
  | 0, s => .next s
  | n + 1, s =>
    if s.busy then
      match advance s with
      | .next t => runStages n t
      | .fault r => .fault r
      | .refused r => .refused r
    else .next s

end Sys2Proof.Machine
end

