-- ==== Sys2Proof/Certificates/Slice0/Obligations.lean ====
section
/-! DEFINITION. The statements for the provers, in the order of OBLIGATIONS.json. -/

open Sys2Proof Sys2Proof.Machine

/-! ### Reset, registers, buffers -/

/-- R310, R46: in the reset state every control register reads 0, no Symbol is held, STAGE is S0 and no buffer element has
been written; and a reset, also one that arrives while a command is executing, gives that state. The configuration, the
host's further accesses and the reset count are the model's own fields (notes/assumptions/1.md, 2.md, 3.md). R46 leaves
the hidden working state and the other fields of SYM unspecified after reset; that a reset gives them the values of the
model's reset state is the model's choice (notes/assumptions/4.md, 6.md). -/
def Obligations.ResetGivesTheResetState : Prop :=
  ((∀ i, readReg i State.reset = 0) ∧ State.reset.busy = false ∧ State.reset.sym.valid = false ∧ State.reset.stage = .s0
    ∧ ∀ i, State.reset.text.read i = none ∧ State.reset.segtab.read i = none ∧ State.reset.segdata.read i = none)
  ∧ ∀ s rest, s.pending = .reset :: rest →
      step s = .next { State.reset with cfg := s.cfg, pending := rest, epoch := s.epoch + 1 }

/-- R21, R25, R26: a host write of a register other than CMD changes what TEXTLEN reads (bits 15:0 of the value), or
what NSEG reads (bits 7:0), or nothing, and every other register reads as before. -/
def Obligations.HostRegisterWriteKeepsFieldBits : Prop :=
  ∀ s i v rest, s.busy = false → s.pending = .writeReg i v :: rest → i ≠ 0 →
    ∃ t, step s = .next t ∧ t = { s with textlen := t.textlen, nseg := t.nseg, pending := rest }
      ∧ ∀ j, readReg j t
          = if i = j ∧ j = 3 then v &&& 0xFFFF else if i = j ∧ j = 4 then v &&& 0xFF else readReg j s

/-- R23, R28: the bits of STATUS; the fields of SYMINFO while a Symbol is held, each other bit 0, and all 0 while none
is held. -/
def Obligations.StatusAndSyminfoReadTheirFields : Prop :=
  (∀ (s : State) (k : Nat), (readReg 1 s).getLsbD k
    = if k = 0 then s.busy else if k = 1 then s.done else if k = 2 then s.err else if k = 3 then s.sym.valid else false)
  ∧ (∀ s : State, s.sym.valid = false → readReg 6 s = 0)
  ∧ ∀ s : State, s.sym.valid = true → s.sym.Wf →
      (readReg 6 s).toNat = s.sym.version + 2 ^ 8 * s.sym.ecl.ord.toNat + 2 ^ 12 * s.sym.mask + 2 ^ 16 * s.sym.size

/-- R62, `MemWrite`: a host write of a run of elements that exist stores each of them and changes no other element and
nothing else. -/
def Obligations.HostWriteStoresTheRun : Prop :=
  (∀ s a vs rest, s.busy = false → s.pending = .writeText a vs :: rest → a + vs.length ≤ s.cfg.textMax →
      ∃ b, step s = .next { s with text := b, pending := rest } ∧ s.text.WrittenRun b a vs)
    ∧ (∀ s a vs rest, s.busy = false → s.pending = .writeSegtab a vs :: rest → a + vs.length ≤ s.cfg.segMax →
      ∃ b, step s = .next { s with segtab := b, pending := rest } ∧ s.segtab.WrittenRun b a vs)
    ∧ ∀ s a vs rest, s.busy = false → s.pending = .writeSegdata a vs :: rest → a + vs.length ≤ s.cfg.segdataBytes →
      ∃ b, step s = .next { s with segdata := b, pending := rest } ∧ s.segdata.WrittenRun b a vs

/-- R62, `MemRead` by the host: a register is returned as it reads, a run of n elements as they were written, and QRSE
does not change. What an element never written returns is a free value (R46; notes/assumptions/3.md). -/
def Obligations.HostReadsReturnDataAndChangeNothing : Prop :=
  (∀ s i rest, s.busy = false → s.pending = .readReg i :: rest →
    step s = .next { s with pending := rest, readData := [readReg i s] })
  ∧ ∀ s sp a n rest, s.busy = false → s.pending = .readElements sp a n :: rest → a + n ≤ s.cfg.elements sp →
    ∃ r, step s = .next { s with pending := rest, readData := r } ∧ r.length = n
      ∧ ∀ k, k < n →
          (∀ v, sp = .text → s.text.read (a + k) = some v → r[k]? = some (v.setWidth 32))
          ∧ (∀ v, sp = .segtab → s.segtab.read (a + k) = some v → r[k]? = some v)
          ∧ ∀ v, sp = .segdata → s.segdata.read (a + k) = some v → r[k]? = some (v.setWidth 32)

/-! ### Encodings and the step -/

/-- R92 to R95, R97: decoding an encoded well-formed instruction gives it back. -/
def Obligations.DecodeOfEncodeIsTheInstruction : Prop :=
  ∀ i : Instr, i.wf = true → decode (encode i) = .ok i

/-- R96, R97: a code that decodes has one meaning, whose encoding is that code. -/
def Obligations.EncodeOfDecodeIsTheCode : Prop :=
  ∀ c i, decode c = .ok i → i.wf = true ∧ encode i = c

/-- R98: the command words that do not decode are those whose OP is 0 or 4 to 15, or that set a reserved bit of their
format. -/
def Obligations.IllegalWordsAreTheReservedOnes : Prop :=
  ∀ w : Word, (∃ r, decode (.command w) = .error r) ↔
    ((w.toNat / 2 ^ 28 = 0 ∨ 4 ≤ w.toNat / 2 ^ 28)
      ∨ (w.toNat / 2 ^ 28 = 1 ∧ w.toNat / 2 ^ 2 % 2 ^ 26 ≠ 0)
      ∨ (w.toNat / 2 ^ 28 = 2 ∧ w.toNat / 2 ^ 19 % 2 ^ 9 ≠ 0)
      ∨ (w.toNat / 2 ^ 28 = 3 ∧ w.toNat / 2 ^ 24 % 2 ^ 4 ≠ 0))

/-- Words written out from the formats (R92, R93, R94, R97) and the vectors V30 decode to the operations they stand
for. -/
def Obligations.SampleCodesDecode : Prop :=
  decode (.command 0x10000003) = .ok (.enctxt .high) ∧ decode (.command 0x10000000) = .ok (.enctxt .low)
    ∧ decode (.command 0x2007E807) = .ok (.encseg .high 1 40 (-1) true)
    ∧ decode (.command 0x20022905) = .ok (.encseg .medium 1 41 (-8) false)
    ∧ decode (.command 0x30014014) = .ok (.getmod 20 20) ∧ decode (.command 0x30000FFF) = .ok (.getmod (-1) 0)
    ∧ decode (.stage 0b0010) = .ok .s2Vsel ∧ decode (.stage 0b1011) = .ok .s11Getm
    ∧ decode (.maskIndex 0b110) = .ok .mask6 ∧ decode (.level 0b10) = .ok .eccQuartile

/-- R260: a host write of a word that decodes to a command runs that command, in one step. -/
def Obligations.CommandWriteRunsTheDecodedCommand : Prop :=
  ∀ s w rest i, s.busy = false → s.pending = .writeReg 0 w :: rest → decode (.command w) = .ok i →
    step s = exec i { s with pending := rest }

/-- R40, R97: while a command is executing, a step runs the operation whose code STAGE holds, and in S0 it completes the
command as R260 says. Stepping by stages is the model's own reading of a command in progress (notes/assumptions/8.md);
with no command in progress and no access to come, a step leaves everything as it is. -/
def Obligations.StageStepRunsTheSelectedOperation : Prop :=
  (∀ s i, s.busy = true → (∀ rest, s.pending ≠ .reset :: rest) → decode (.stage s.stage.code) = .ok i → step s = exec i s)
    ∧ (∀ s, s.busy = true → (∀ rest, s.pending ≠ .reset :: rest) → s.stage = .s0 →
        step s = .next { s with errcode := 0, done := true, busy := false })
    ∧ ∀ s, s.busy = false → s.pending = [] → step s = .next s

/-- R264: a word that is no command sets ERR, ERRCODE 0x11 and DONE, leaves CMD holding it, and nothing else. -/
def Obligations.IllegalWordOnlyRaises : Prop :=
  ∀ s w rest r, s.busy = false → s.stage = .s0 → s.pending = .writeReg 0 w :: rest → decode (.command w) = .error r →
    step s = .next { s with cmd := w, err := true, errcode := 0x11, done := true, pending := rest }

/-! ### Segment Builder -/

/-- R131, R132, R133, R134: the bytes of the code unit or pair at the head of a text, before the bytes of the rest. -/
def Obligations.Utf8ExpandsClassByClass : Prop :=
  ∀ (ls : LoneSurrogate) (c d : CodeUnit) (rest : List CodeUnit),
    (c.toNat < 0x80 → utf8Expand ls (c :: rest) = (utf8Expand ls rest).map ([BitVec.ofNat 8 c.toNat] ++ ·))
    ∧ (0x80 ≤ c.toNat → c.toNat < 0x800 → utf8Expand ls (c :: rest)
        = (utf8Expand ls rest).map ([BitVec.ofNat 8 (0xC0 ||| c.toNat >>> 6), BitVec.ofNat 8 (0x80 ||| c.toNat &&& 0x3F)] ++ ·))
    ∧ (0x800 ≤ c.toNat → ¬(0xD800 ≤ c.toNat ∧ c.toNat ≤ 0xDFFF) → utf8Expand ls (c :: rest)
        = (utf8Expand ls rest).map ([BitVec.ofNat 8 (0xE0 ||| c.toNat >>> 12),
            BitVec.ofNat 8 (0x80 ||| c.toNat >>> 6 &&& 0x3F), BitVec.ofNat 8 (0x80 ||| c.toNat &&& 0x3F)] ++ ·))
    ∧ ∀ cp, 0xD800 ≤ c.toNat → c.toNat ≤ 0xDBFF → 0xDC00 ≤ d.toNat → d.toNat ≤ 0xDFFF →
        cp = 0x10000 + (c.toNat - 0xD800) * 2 ^ 10 + (d.toNat - 0xDC00) →
        utf8Expand ls (c :: d :: rest)
          = (utf8Expand ls rest).map ([BitVec.ofNat 8 (0xF0 ||| cp >>> 18), BitVec.ofNat 8 (0x80 ||| cp >>> 12 &&& 0x3F),
              BitVec.ofNat 8 (0x80 ||| cp >>> 6 &&& 0x3F), BitVec.ofNat 8 (0x80 ||| cp &&& 0x3F)] ++ ·)

/-- R137: under `fault` a text expands unless it holds an unpaired surrogate; under `three_byte` every text expands, an
unpaired surrogate at its head to three bytes like any other value. -/
def Obligations.OnlyUnpairedSurrogatesRaise : Prop :=
  (∀ u, utf8Expand .fault u = none ↔ ∃ i, UnpairedAt u i)
    ∧ (∀ u, ∃ bs, utf8Expand .threeByte u = some bs)
    ∧ ∀ (c : CodeUnit) (rest : List CodeUnit), 0xD800 ≤ c.toNat → c.toNat ≤ 0xDFFF →
        (c.toNat ≤ 0xDBFF → ∀ d, rest.head? = some d → ¬(0xDC00 ≤ d.toNat ∧ d.toNat ≤ 0xDFFF)) →
        utf8Expand .threeByte (c :: rest)
          = (utf8Expand .threeByte rest).map ([BitVec.ofNat 8 (0xE0 ||| c.toNat >>> 12),
              BitVec.ofNat 8 (0x80 ||| c.toNat >>> 6 &&& 0x3F), BitVec.ofNat 8 (0x80 ||| c.toNat &&& 0x3F)] ++ ·)

/-- R130: at least one byte and at most three for each code unit. -/
def Obligations.Utf8LengthIsBounded : Prop :=
  ∀ ls u bs, utf8Expand ls u = some bs → u.length ≤ bs.length ∧ bs.length ≤ 3 * u.length

/-- R135, R138, R139: S1 makes one segment of a written text, its character count the byte count and its bits those of
the bytes, most significant first, for the empty text too; it writes SEGS and STAGE only. -/
def Obligations.SegbMakesOneByteSegment : Prop :=
  ∀ s units bs, s.textlen.toNat = units.length → units.length ≤ s.cfg.textMax → s.text.Holds 0 units →
    utf8Expand s.cfg.loneSurrogate units = some bs →
    ∃ bits, exec .s1Segb s
        = .next { s with stage := .s2, work := { s.work with segs := [{ numChars := bs.length, bits := bits }] } }
      ∧ bits.length = 8 * bs.length
      ∧ ∀ k, k < 8 * bs.length → bits[k]? = bs[k / 8]?.map fun b => b.getLsbD (7 - k % 8)

/-- R135, R137, R160, R163, R284: S1 raises LEN_RANGE where LEN exceeds the buffer, before it reads any element, and
LONE_SURROGATE where the text does not expand; S4 raises BITWIDTH where a character count does not fit its field, and
PAYLOAD_EXCEEDS where the stream is longer than the capacity. Each changes only the error registers, DONE, BUSY and
STAGE. That the hidden working state, which R284 abandons, stays as it was, BB with it, is the model's choice
(notes/assumptions/16.md). -/
def Obligations.SegbAndAsmRaiseTheirErrors : Prop :=
  (∀ s : State, s.cfg.textMax < s.textlen.toNat →
      exec .s1Segb s = .next { s with errcode := 0x61, err := true, done := true, busy := false, stage := .s0 })
    ∧ (∀ (s : State) (units : List CodeUnit), s.textlen.toNat = units.length → units.length ≤ s.cfg.textMax →
        s.text.Holds 0 units → utf8Expand s.cfg.loneSurrogate units = none →
        exec .s1Segb s = .next { s with errcode := 0x71, err := true, done := true, busy := false, stage := .s0 })
    ∧ (∀ s : State, ¬CountsFit s.work.ver s.work.segs →
      exec .s4Asm s = .next { s with errcode := 0x51, err := true, done := true, busy := false, stage := .s0 })
    ∧ ∀ s : State, CountsFit s.work.ver s.work.segs →
        dataCapacityBits s.work.ver s.work.ecl < (dataStream s.work.ver s.work.segs).length →
        exec .s4Asm s = .next { s with errcode := 0x22, err := true, done := true, busy := false, stage := .s0 }

/-- R75: a command that would read a buffer element no host write has set is refused, at the first such element: S1 and
ENCTXT for TEXT[0 .. LEN-1]; ENCSEG, its range checks passed, for SEGTAB[0 .. N-1] and then for
SEGDATA[0 .. ceil(off_N / 8) - 1]. -/
def Obligations.UnwrittenElementsAreRefused : Prop :=
  (∀ s i, s.textlen.toNat ≤ s.cfg.textMax → i < s.textlen.toNat → s.text.read i = none →
      (∀ j, j < i → ∃ v, s.text.read j = some v) →
      exec .s1Segb s = .refused (.unwrittenElement .text i)
        ∧ ∀ ecc, exec (.enctxt ecc) s = .refused (.unwrittenElement .text i))
    ∧ ∀ s ecc minv maxv mask boost, VersionsInRange minv maxv → MaskInRange mask → s.nseg.toNat ≤ s.cfg.segMax →
      (∀ i, i < s.nseg.toNat → s.segtab.read i = none → (∀ j, j < i → ∃ v, s.segtab.read j = some v) →
        exec (.encseg ecc minv maxv mask boost) s = .refused (.unwrittenElement .segtab i))
      ∧ ∀ tab, s.nseg.toNat = tab.length → s.segtab.Holds 0 tab →
          (tab.map fun e => e.toNat / 2 ^ 16).sum ≤ 8 * s.cfg.segdataBytes →
          ∀ i, i < ((tab.map fun e => e.toNat / 2 ^ 16).sum + 7) / 8 → s.segdata.read i = none →
            (∀ j, j < i → ∃ v, s.segdata.read j = some v) →
            exec (.encseg ecc minv maxv mask boost) s = .refused (.unwrittenElement .segdata i)

/-! ### Capacity/Version Selector -/

/-- R140, R142 to R145: the count field widths; every column of the table under R145, at all 40 versions: the module and
codeword counts, the remainder bits, and E, B and DataCodewords at the four levels; the formulas of R142 and R145; and
capacity falls strictly with the level, to at least 9 codewords (the first sentence of R149). -/
def Obligations.CapacityFallsWithTheLevel : Prop :=
  (List.range' 1 40).map capacityRow = capacityTable
    ∧ ∀ v, 1 ≤ v → v ≤ 40 →
      (countFieldWidth v = if v ≤ 9 then 8 else 16) ∧ rawCodewords v = rawModules v / 8
      ∧ (∀ l, dataCodewords v l = rawCodewords v - eccPerBlock l v * numBlocks l v
          ∧ dataCapacityBits v l = 8 * dataCodewords v l)
      ∧ dataCodewords v .medium < dataCodewords v .low ∧ dataCodewords v .quartile < dataCodewords v .medium
      ∧ dataCodewords v .high < dataCodewords v .quartile ∧ 9 ≤ dataCodewords v .high

/-- R146: TotalBits is `none` where a count does not fit the count field, and else the sum over the segments. -/
def Obligations.TotalBitsIsTheSum : Prop :=
  ∀ segs v, (¬CountsFit v segs → totalBits segs v = none)
    ∧ (CountsFit v segs →
        totalBits segs v = some ((segs.map fun g => 4 + countFieldWidth v + g.bits.length).sum)
        ∧ totalBits segs v = some (dataStream v segs).length)

/-- R147, R150: S2 takes the first version of the range that the segments fit at the requested level, and writes VER,
USED, ECL and STAGE only; where no version of the range fits, the empty range included, it raises NO_VERSION_FITS. -/
def Obligations.VselTakesTheFirstFittingVersion : Prop :=
  (∀ (s : State) (v : Nat), s.work.minv ≤ v → v ≤ s.work.maxv → Fits s.work.segs s.work.reqEcl v →
    (∀ u, s.work.minv ≤ u → u < v → ¬Fits s.work.segs s.work.reqEcl u) →
    exec .s2Vsel s = .next { s with
      stage := .s3,
      work := { s.work with ver := v, used := (dataStream v s.work.segs).length, ecl := s.work.reqEcl } })
  ∧ ∀ s : State, (∀ v, s.work.minv ≤ v → v ≤ s.work.maxv → ¬Fits s.work.segs s.work.reqEcl v) →
    exec .s2Vsel s = .next { s with errcode := 0x12, err := true, done := true, busy := false, stage := .s0 }

/-- R148: with boosting, S3 takes the highest of MEDIUM, QUARTILE, HIGH whose capacity at VER holds USED, or keeps the
level where none does; without it, S3 keeps the level. Where the level in force holds USED the result is not below it, and
holds USED. S3 writes ECL and STAGE only. -/
def Obligations.BoostTakesTheHighestFittingLevel : Prop :=
  ∀ s : State, ∃ l, exec .s3Boost s = .next { s with stage := .s4, work := { s.work with ecl := l } }
    ∧ (s.work.boosten = false → l = s.work.ecl)
    ∧ (s.work.boosten = true →
        ((l ≠ .low ∧ s.work.used ≤ dataCapacityBits s.work.ver l
            ∧ ∀ m, s.work.used ≤ dataCapacityBits s.work.ver m → m.ord.toNat ≤ l.ord.toNat)
          ∨ (l = s.work.ecl ∧ ∀ m, m ≠ .low → dataCapacityBits s.work.ver m < s.work.used)))
    ∧ (s.work.used ≤ dataCapacityBits s.work.ver s.work.ecl →
        s.work.ecl.ord.toNat ≤ l.ord.toNat ∧ s.work.used ≤ dataCapacityBits s.work.ver l)

/-! ### Codeword Assembler -/

/-- R161 to R167: S4 emits the segments' stream (each the bits 0100, its count most significant bit first, its payload), a
terminator of up to four zero bits, zero bits to a byte boundary, and
pad codewords 0xEC, 0x11 alternating, to exactly the capacity, and packs it; it writes BB, DCW and STAGE only. -/
def Obligations.AsmPadsTheStreamToCapacity : Prop :=
  ∀ s : State, CountsFit s.work.ver s.work.segs →
    (dataStream s.work.ver s.work.segs).length ≤ dataCapacityBits s.work.ver s.work.ecl →
    ∃ full dcw pads,
      exec .s4Asm s = .next { s with stage := .s5, work := { s.work with bb := full, dcw := dcw } }
      ∧ (let stream := dataStream s.work.ver s.work.segs
         let cap := dataCapacityBits s.work.ver s.work.ecl
         let term := stream ++ List.replicate (min 4 (cap - stream.length)) false
         full = term ++ List.replicate ((8 - term.length % 8) % 8) false ++ bytesBits pads
           ∧ full.length = cap)
      ∧ (∀ i, i < pads.length → pads[i]? = some (if i % 2 = 0 then 0xEC else 0x11))
      ∧ bytesBits dcw = full ∧ dcw.length = dataCodewords s.work.ver s.work.ecl
      ∧ (∀ g, segmentBits s.work.ver g
          = [false, true, false, false] ++ bitsMSB g.numChars (countFieldWidth s.work.ver) ++ g.bits)
      ∧ ∀ v n k, k < n → (bitsMSB v n).length = n ∧ (bitsMSB v n)[k]? = some (v.testBit (n - 1 - k))

/-! ### Error-Correction Engine -/

/-- R171: the product is that of the field of R170: commutative, associative, distributing over XOR, with 1 as its unit
and no zero divisor, and its product by 0x02 a shift reduced by the field polynomial 0x11D. -/
def Obligations.GfMulIsAFieldProduct : Prop :=
  ∀ a b c : Byte, gfMul a b = gfMul b a ∧ gfMul (gfMul a b) c = gfMul a (gfMul b c)
    ∧ gfMul a (b ^^^ c) = gfMul a b ^^^ gfMul a c ∧ gfMul 1 b = b ∧ gfMul 0 b = 0
    ∧ gfMul 2 b = BitVec.ofNat 8 (if b.toNat < 128 then 2 * b.toNat else (2 * b.toNat) ^^^ 0x11D)
    ∧ (gfMul a b = 0 → a = 0 ∨ b = 0)

/-- R172, R178: the divisor of degree E has E coefficients and the first E powers of 0x02 as its roots, for each E that
occurs; a block followed by its remainder leaves remainder zero, and evaluates to 0 at each of those roots. -/
def Obligations.BlockWithItsRemainderIsDivisible : Prop :=
  (∀ data div : List Byte, div ≠ [] → rsRemainder (data ++ rsRemainder data div) div = List.replicate div.length 0)
    ∧ ∀ e ∈ [7, 10, 13, 15, 16, 17, 18, 20, 22, 24, 26, 28, 30],
        (rsDivisor e).length = e
          ∧ ∀ i, i < e → gfEval (1 :: rsDivisor e) (gfPow i) = 0
            ∧ ∀ data, gfEval (data ++ rsRemainder data (rsDivisor e)) (gfPow i) = 0

/-- R174, R175, R179: S5 slices the data codewords into B blocks in order, the first B - (R mod B) of them short, and
gives each the remainder of its data; it writes BLK and STAGE only. -/
def Obligations.RsencSlicesIntoBlocks : Prop :=
  ∀ s : State, 1 ≤ s.work.ver → s.work.ver ≤ 40 → s.work.dcw.length = dataCodewords s.work.ver s.work.ecl →
    ∃ blk, exec .s5Rsenc s = .next { s with stage := .s6, work := { s.work with blk := blk } }
      ∧ (let b := numBlocks s.work.ecl s.work.ver
         let e := eccPerBlock s.work.ecl s.work.ver
         let r := rawCodewords s.work.ver
         blk.length = b ∧ (blk.map Block.data).flatten = s.work.dcw
           ∧ ∀ j k, blk[j]? = some k →
               k.data.length = r / b - e + (if j < b - r % b then 0 else 1)
               ∧ k.ecc = rsRemainder k.data (rsDivisor e) ∧ k.ecc.length = e)

/-- R176, R177: S6 emits the data codewords by position across the blocks, a short block skipped in the last data round,
then the error-correction codewords by position; R codewords in all; it writes ACW and STAGE only. -/
def Obligations.IlvInterleavesByPosition : Prop :=
  ∀ s : State, 1 ≤ s.work.ver → s.work.ver ≤ 40 → s.work.blk.length = numBlocks s.work.ecl s.work.ver →
    (∀ j k, s.work.blk[j]? = some k →
      (let b := numBlocks s.work.ecl s.work.ver
       let e := eccPerBlock s.work.ecl s.work.ver
       let r := rawCodewords s.work.ver
       k.data.length = r / b - e + (if j < b - r % b then 0 else 1) ∧ k.ecc.length = e)) →
    ∃ acw, exec .s6Ilv s = .next { s with stage := .s7, work := { s.work with acw := acw } }
      ∧ acw.length = rawCodewords s.work.ver
      ∧ (let b := numBlocks s.work.ecl s.work.ver
         let e := eccPerBlock s.work.ecl s.work.ver
         let r := rawCodewords s.work.ver
         let short := r / b - e
         let ns := b - r % b
         ∀ j k, s.work.blk[j]? = some k →
           (∀ i, i < short → acw[i * b + j]? = k.data[i]?)
           ∧ (ns ≤ j → acw[short * b + (j - ns)]? = k.data[short]?)
           ∧ ∀ i, i < e → acw[dataCodewords s.work.ver s.work.ecl + i * b + j]? = k.ecc[i]?)

/-! ### Matrix Builder: patterns, format, version, placement -/

/-- R192, R193, R196, R197, R200: after S7 the three finders with their separators and the timing patterns have their
colours, the format cells are light, the dark module is dark, and from version 7 on both version blocks hold the version
word; exactly these and the alignment squares are function modules, and every other module is light; S7 writes M, F and
STAGE only. -/
def Obligations.FpatDrawsTheFixedPatterns : Prop :=
  ∀ s : State, 1 ≤ s.work.ver → s.work.ver ≤ 40 →
    ∃ m f, exec .s7Fpat s = .next { s with stage := .s8, work := { s.work with m := m, f := f } }
      ∧ (let n := 4 * s.work.ver + 17
         m.square n = true ∧ f.square n = true
          ∧ (∀ x y : Nat, x < 8 → y < 8 →
              let d := max ((x : Int) - 3).natAbs ((y : Int) - 3).natAbs
              let dark := d != 2 && d != 4
              m.get x y = dark ∧ m.get (n - 1 - x) y = dark ∧ m.get x (n - 1 - y) = dark)
          ∧ (∀ i, 8 ≤ i → i ≤ n - 9 → m.get i 6 = (i % 2 == 0) ∧ m.get 6 i = (i % 2 == 0))
          ∧ (∀ x y, (x, y) ∈ formatPath1 ∨ (x, y) ∈ formatPath2 n → m.get x y = false)
          ∧ m.get 8 (n - 8) = true
          ∧ (7 ≤ s.work.ver → ∀ i, i < 18 →
              m.get (n - 11 + i % 3) (i / 3) = (versionWord s.work.ver).getLsbD i
                ∧ m.get (i / 3) (n - 11 + i % 3) = (versionWord s.work.ver).getLsbD i)
          ∧ (∀ x y, f.get x y = true ↔ IsFunctionCell s.work.ver x y)
          ∧ ∀ x y, f.get x y = false → m.get x y = false)

/-- R194, R195: the alignment positions of the 40 versions are those of the table under R194; after S7 the alignment
pattern at each pair of positions that is not a finder corner has its colours and is made of function modules. -/
def Obligations.FpatDrawsTheAlignmentPatterns : Prop :=
  (List.range' 1 40).map alignPos = alignmentTable
  ∧ ∀ s t, 1 ≤ s.work.ver → s.work.ver ≤ 40 → exec .s7Fpat s = .next t →
    ∀ cx ∈ alignPos s.work.ver, ∀ cy ∈ alignPos s.work.ver,
      ¬((cx = 6 ∧ cy = 6) ∨ (cx = 6 ∧ cy = 4 * s.work.ver + 10) ∨ (cx = 4 * s.work.ver + 10 ∧ cy = 6)) →
      ∀ x y : Nat, x ≤ 4 → y ≤ 4 →
        t.work.m.get (cx + x - 2) (cy + y - 2) = (max ((x : Int) - 2).natAbs ((y : Int) - 2).natAbs != 1)
          ∧ t.work.f.get (cx + x - 2) (cy + y - 2) = true

/-- R251, R253: the format words and version words that the spec tabulates. -/
def Obligations.FormatAndVersionWordTables : Prop :=
  (List.range 8).map (formatWord .low) = [0x77C4, 0x72F3, 0x7DAA, 0x789D, 0x662F, 0x6318, 0x6C41, 0x6976]
    ∧ (List.range 8).map (formatWord .medium) = [0x5412, 0x5125, 0x5E7C, 0x5B4B, 0x45F9, 0x40CE, 0x4F97, 0x4AA0]
    ∧ (List.range 8).map (formatWord .quartile) = [0x355F, 0x3068, 0x3F31, 0x3A06, 0x24B4, 0x2183, 0x2EDA, 0x2BED]
    ∧ (List.range 8).map (formatWord .high) = [0x1689, 0x13BE, 0x1CE7, 0x19D0, 0x0762, 0x0255, 0x0D0C, 0x083B]
    ∧ (List.range' 7 34).map versionWord
      = [0x07C94, 0x085BC, 0x09A99, 0x0A4D3, 0x0BBF6, 0x0C762, 0x0D847, 0x0E60D, 0x0F928, 0x10B78, 0x1145D, 0x12A17,
          0x13532, 0x149A6, 0x15683, 0x168C9, 0x177EC, 0x18EC4, 0x191E1, 0x1AFAB, 0x1B08E, 0x1CC1A] ++
        [0x1D33F, 0x1ED75, 0x1F250, 0x209D5, 0x216F0, 0x228BA, 0x2379F, 0x24B0B, 0x2542E, 0x26A64, 0x27541, 0x28C69]

/-- R252: drawing a format word puts each bit in its cell of both paths and the dark module, and touches no other
cell. -/
def Obligations.FormatWordStandsOnBothPaths : Prop :=
  ∀ (c : Canvas) (w : BitVec 15), 21 ≤ c.size → c.m.square c.size = true → c.f.square c.size = true →
    (∀ i x y, (formatPath1[i]? = some (x, y) ∨ (formatPath2 c.size)[i]? = some (x, y)) →
        (drawFormatBitsWord w c).m.get x y = w.getLsbD i ∧ (drawFormatBitsWord w c).f.get x y = true)
      ∧ (drawFormatBitsWord w c).m.get 8 (c.size - 8) = true ∧ (drawFormatBitsWord w c).f.get 8 (c.size - 8) = true
      ∧ ∀ x y, ¬IsFormatCell c.size x y →
          (drawFormatBitsWord w c).m.get x y = c.m.get x y ∧ (drawFormatBitsWord w c).f.get x y = c.f.get x y

/-- R254: from version 7 on, bit i of the version word stands at (size - 11 + i mod 3, floor(i / 3)) and at its
transpose, and no other cell changes; below version 7 nothing changes. -/
def Obligations.VersionWordStandsInBothBlocks : Prop :=
  (∀ v c, v < 7 → drawVersion v c = c) ∧
    ∀ v c, 7 ≤ v → c.size = 4 * v + 17 → c.m.square c.size = true → c.f.square c.size = true →
      (∀ i, i < 18 →
          let a := c.size - 11 + i % 3
          let b := i / 3
          ((drawVersion v c).m.get a b = (versionWord v).getLsbD i ∧ (drawVersion v c).f.get a b = true)
            ∧ ((drawVersion v c).m.get b a = (versionWord v).getLsbD i ∧ (drawVersion v c).f.get b a = true))
        ∧ ∀ x y, ¬(c.size - 11 ≤ x ∧ x ≤ c.size - 9 ∧ y ≤ 5) → ¬(c.size - 11 ≤ y ∧ y ≤ c.size - 9 ∧ x ≤ 5) →
            (drawVersion v c).m.get x y = c.m.get x y ∧ (drawVersion v c).f.get x y = c.f.get x y

/-- R210: the path visits exactly the cells that are not function modules, column 6 apart, each once, and in the order of
R210: the larger column pair first, in a pair the rows upward or downward as the pair says, in a row the right column
before the left. -/
def Obligations.ZigzagVisitsEachFreeCellOnce : Prop :=
  ∀ v f, 1 ≤ v → (zigzag (4 * v + 17) f).Nodup ∧ (zigzag (4 * v + 17) f).Pairwise PathBefore
    ∧ ∀ x y, (x, y) ∈ zigzag (4 * v + 17) f ↔ x < 4 * v + 17 ∧ y < 4 * v + 17 ∧ x ≠ 6 ∧ f.get x y = false

/-- R211, R212, R213: S8 puts bit 7 - (i mod 8) of codeword floor(i / 8) on cell i of the path, and leaves every other
module as it was, the remainder modules at the end of the path included; it writes M and STAGE only. -/
def Obligations.PlaceWritesTheCodewordBits : Prop :=
  ∀ s : State, 1 ≤ s.work.ver → s.work.m.square (4 * s.work.ver + 17) = true →
    ∃ m, exec .s8Place s = .next { s with stage := .s9, work := { s.work with m := m } }
      ∧ (∀ i x y b, (zigzag (4 * s.work.ver + 17) s.work.f)[i]? = some (x, y) → s.work.acw[i / 8]? = some b →
          m.get x y = b.getLsbD (7 - i % 8))
      ∧ ∀ x y, (x, y) ∉ (zigzag (4 * s.work.ver + 17) s.work.f).take (8 * s.work.acw.length) →
          m.get x y = s.work.m.get x y

/-! ### Masks, penalty, selection -/

/-- R220 to R228: each mask inverts the modules of the grid where its predicate holds and that are no function modules,
and changes nothing else; the predicate is that of its mask index, which is the row's code. That a mask row's effect is
ApplyMask on the working grids is the model's reading (notes/assumptions/7.md). -/
def Obligations.EachMaskInvertsWhereItsPredicateHolds : Prop :=
  ∀ (i : Instr) (k : Nat) (p : Nat → Nat → Bool), (i, k, p) ∈
    [(Instr.mask0, 0, fun x y => (x + y) % 2 == 0), (.mask1, 1, fun _ y => y % 2 == 0), (.mask2, 2, fun x _ => x % 3 == 0),
      (.mask3, 3, fun x y => (x + y) % 3 == 0), (.mask4, 4, fun x y => (x / 3 + y / 2) % 2 == 0),
      (.mask5, 5, fun x y => x * y % 2 + x * y % 3 == 0), (.mask6, 6, fun x y => (x * y % 2 + x * y % 3) % 2 == 0),
      (.mask7, 7, fun x y => ((x + y) % 2 + x * y % 3) % 2 == 0)] →
    decode (.maskIndex (BitVec.ofNat 3 k)) = .ok i ∧ (∀ x y, maskPred k x y = p x y)
    ∧ ∀ s : State, ∃ m, exec i s = .next { s with work := { s.work with m := m } }
      ∧ m.square (4 * s.work.ver + 17) = true
      ∧ ∀ x y, x < 4 * s.work.ver + 17 → y < 4 * s.work.ver + 17 →
          m.get x y = if s.work.f.get x y = false ∧ p x y = true then !s.work.m.get x y else s.work.m.get x y

/-- R229: a mask applied twice in succession restores the state exactly. That a mask row's effect is ApplyMask on the
working grids is the model's reading (notes/assumptions/7.md). -/
def Obligations.MaskAppliedTwiceRestores : Prop :=
  ∀ i ∈ [Instr.mask0, .mask1, .mask2, .mask3, .mask4, .mask5, .mask6, .mask7], ∀ s : State,
    s.work.m.square (4 * s.work.ver + 17) = true →
    ∃ t, exec i s = .next t ∧ exec i t = .next s

/-- R230, R231: runs are maximal, and each run of L ≥ 5 in a row or column scores 3 + (L - 5); each position of a 2×2
block of one colour scores 3, overlapping ones each. R234: the penalty is the sum of the four rules. -/
def Obligations.RunsAndBlocksAreScored : Prop :=
  (∀ (b : Bool) (n : Nat) (rest : List Bool), 0 < n → rest.head? ≠ some b →
      runLengths (List.replicate n b ++ rest) = n :: runLengths rest)
    ∧ (∀ (size : Nat) (g : Grid), g.square size = true →
        penaltyRuns size g
          = ((g.rows ++ (List.range size).map fun x => (List.range size).map fun y => g.get x y).map fun line =>
              ((runLengths line).map fun n => if 5 ≤ n then 3 + (n - 5) else 0).sum).sum)
    ∧ (∀ (size : Nat) (g : Grid), g.square size = true →
        penaltyBlocks size g
          = 3 * ((List.range (size - 1)).map fun y => (List.range (size - 1)).countP fun x =>
              g.get x y == g.get (x + 1) y && g.get x y == g.get x (y + 1) && g.get x y == g.get (x + 1) (y + 1)).sum)
    ∧ ∀ (cfg : Cfg) (size : Nat) (g : Grid),
        penalty cfg size g = penaltyRuns size g + penaltyBlocks size g + penaltyFinderLike cfg.n3Both size g
          + penaltyBalance cfg.n4Ceil size g

/-- R232: 40 points for each window of 11 modules, in any row or column, that equals the pattern, or its reverse where
`CFG.N3_BOTH` is set. -/
def Obligations.FinderLikeCountsWindows : Prop :=
  ∀ (n3 : Bool) (size : Nat) (g : Grid), g.square size = true →
    penaltyFinderLike n3 size g
      = 40 * ((List.range size).map fun k => (List.range (size + 1 - 11)).countP fun i =>
            let w := (List.range 11).map fun j => g.get (i + j) k
            decide (w = [true, false, true, true, true, false, true, false, false, false, false])
              || (n3 && decide (w = [false, false, false, false, true, false, true, true, true, false, true]))).sum
        + 40 * ((List.range size).map fun k => (List.range (size + 1 - 11)).countP fun i =>
            let w := (List.range 11).map fun j => g.get k (i + j)
            decide (w = [true, false, true, true, true, false, true, false, false, false, false])
              || (n3 && decide (w = [false, false, false, false, true, false, true, true, true, false, true]))).sum

/-- R233: on a grid of odd side the balance penalty is 10 times a whole number of 5-percent steps, between 0 and 100, and
the reading of `CFG.N4_CEIL` differs from the default, by 10 less, exactly where d is a multiple of the total. -/
def Obligations.BalancePenaltyIsBounded : Prop :=
  ∀ (size : Nat) (g : Grid), size % 2 = 1 → g.square size = true →
    (let total := size * size
     let dark := ((List.range size).map fun y => (List.range size).countP fun x => g.get x y).sum
     let d := (20 * (dark : Int) - 10 * (total : Int)).natAbs
     penaltyBalance false size g = 10 * (d / total)
       ∧ penaltyBalance false size g ≤ 100
       ∧ (d % total ≠ 0 → penaltyBalance true size g = penaltyBalance false size g)
       ∧ (d % total = 0 → penaltyBalance true size g + 10 = penaltyBalance false size g))

/-- R235, R236, R240: with FMASK = -1, S9 takes the lowest-numbered mask of lowest penalty, each penalty that of the
candidate on a copy of its own, and leaves every module outside the format zone as it was; it writes BESTMASK, BESTPEN,
the grids there and STAGE only. -/
def Obligations.MselPicksTheFirstMinimum : Prop :=
  ∀ s : State, s.work.fmask = -1 → 1 ≤ s.work.ver → s.work.GridsDrawn →
    ∃ m f k, exec .s9Msel s = .next { s with
          stage := .s10,
          work := { s.work with
            m := m, f := f, bestMask := k, bestPen := candidatePenalty s.cfg s.work.ecl (canvasOf s.work) k } }
      ∧ IsFirstBest (candidatePenalty s.cfg s.work.ecl (canvasOf s.work)) k
      ∧ m.square (4 * s.work.ver + 17) = true ∧ f.square (4 * s.work.ver + 17) = true
      ∧ ∀ x y, ¬IsFormatCell (4 * s.work.ver + 17) x y →
          m.get x y = s.work.m.get x y ∧ f.get x y = s.work.f.get x y

/-- R237: a forced mask is taken as it is, with no search. That BESTPEN, undefined there, is left as it was is the
model's choice (notes/assumptions/10.md). -/
def Obligations.MselTakesAForcedMask : Prop :=
  ∀ (s : State) (k : Nat), k ≤ 7 → s.work.fmask = k →
    exec .s9Msel s = .next { s with stage := .s10, work := { s.work with bestMask := k } }

/-- R238, R241: S10 commits a Symbol whose modules outside the format zone are those of M, the data modules masked once,
and whose format zone carries the format word of the final level and mask; it writes M, F there, SYM and STAGE only. -/
def Obligations.FinalCommitsTheMaskedSymbol : Prop :=
  ∀ s : State, 1 ≤ s.work.ver →
    ∃ m f, exec .s10Final s = .next { s with
          stage := .s0, work := { s.work with m := m, f := f },
          sym := { valid := true, version := s.work.ver, ecl := s.work.ecl, size := 4 * s.work.ver + 17,
                   mask := s.work.bestMask, modules := m } }
      ∧ m.square (4 * s.work.ver + 17) = true
      ∧ (∀ x y, x < 4 * s.work.ver + 17 → y < 4 * s.work.ver + 17 → ¬IsFormatCell (4 * s.work.ver + 17) x y →
          f.get x y = s.work.f.get x y
          ∧ m.get x y = (s.work.m.get x y ^^ (!s.work.f.get x y && maskPred s.work.bestMask x y)))
      ∧ (∀ i x y, (formatPath1[i]? = some (x, y) ∨ (formatPath2 (4 * s.work.ver + 17))[i]? = some (x, y)) →
          m.get x y = (formatWord s.work.ecl s.work.bestMask).getLsbD i)
      ∧ m.get 8 (4 * s.work.ver + 9) = true

/-! ### Commands -/

/-- R261, R101, R102 to R104, R238: ENCTXT on a written text of at most the version-40 bytes of its level ends well and
holds the Symbol that the rules give for the text's one segment, over versions 1 to 40 with boosting and the selected
mask; it writes CMD, STATUS, ERRCODE, SYM, STAGE and the working state only. -/
def Obligations.EnctxtEncodesTheText : Prop :=
  ∀ s ecc units bs, s.textlen.toNat = units.length → units.length ≤ s.cfg.textMax → s.text.Holds 0 units →
    utf8Expand s.cfg.loneSurrogate units = some bs → bs.length ≤ maxTextBytes ecc →
    ∃ t, exec (.enctxt ecc) s = .next t ∧ EndsWell t ∧ t.cmd = encodeEnctxt ecc
      ∧ IsSymbolOf s.cfg [{ numChars := bs.length, bits := bytesBits bs }] ecc 1 40 (-1) true t.sym
      ∧ SameHostSide s t ∧ t.result = s.result

/-- R261, R292: ENCTXT with too long a buffer length, with an unpaired surrogate, or with too many bytes ends with that
error, in that order, and no Symbol; it writes CMD, STATUS, ERRCODE, SYM.valid, STAGE and the working state only. -/
def Obligations.EnctxtErrorsAreOrdered : Prop :=
  ∀ (s : State) (ecc : Level),
    (s.cfg.textMax < s.textlen.toNat →
      ∃ t, exec (.enctxt ecc) s = .next t ∧ EndsRaised .lenRange t ∧ t.sym = { s.sym with valid := false }
        ∧ SameHostSide s t ∧ t.result = s.result)
    ∧ ∀ units, s.textlen.toNat = units.length → units.length ≤ s.cfg.textMax → s.text.Holds 0 units →
        (utf8Expand s.cfg.loneSurrogate units = none →
          ∃ t, exec (.enctxt ecc) s = .next t ∧ EndsRaised .loneSurrogate t ∧ t.sym = { s.sym with valid := false }
            ∧ SameHostSide s t ∧ t.result = s.result)
        ∧ ∀ bs, utf8Expand s.cfg.loneSurrogate units = some bs → maxTextBytes ecc < bs.length →
          ∃ t, exec (.enctxt ecc) s = .next t ∧ EndsRaised .noVersionFits t ∧ t.sym = { s.sym with valid := false }
            ∧ SameHostSide s t ∧ t.result = s.result

/-- R139, R261, R311: the empty text needs no TEXT element and gives a version-1 Symbol at level HIGH, whatever the
level asked for. -/
def Obligations.EmptyTextGivesVersionOneHigh : Prop :=
  ∀ s ecc, s.textlen = 0 →
    ∃ t, exec (.enctxt ecc) s = .next t ∧ EndsWell t ∧ t.sym.valid = true ∧ t.sym.version = 1 ∧ t.sym.ecl = .high
      ∧ t.sym.size = 21 ∧ t.sym.mask ≤ 7 ∧ SameHostSide s t

/-- R31, R32: segment i of a SEGTAB list has NUMCHARS, bits 15:0 of its element, as its count, BITLEN, bits 31:16, as
its length, and as its bits those of SEGDATA from offset off_i, the sum of the lengths before it, most significant bit
of each byte first. R262, R102 to R104, R238: ENCSEG with operands in range, on segments that are written and fit some
version of the range, ends well and holds the Symbol that the rules give for them; it writes CMD, STATUS, ERRCODE,
SYM, STAGE and the working state only. -/
def Obligations.EncsegEncodesTheSegments : Prop :=
  (∀ (tab : List Word) (bytes : List Byte), totalBitLen tab = (tab.map fun e => e.toNat / 2 ^ 16).sum
    ∧ (cutSegments tab (bytesBits bytes)).length = tab.length
    ∧ (totalBitLen tab ≤ 8 * bytes.length → ∀ i e, tab[i]? = some e →
        ∃ g, (cutSegments tab (bytesBits bytes))[i]? = some g
          ∧ g.numChars = e.toNat % 2 ^ 16 ∧ g.bits.length = e.toNat / 2 ^ 16
          ∧ ∀ off k, off = ((tab.take i).map fun e => e.toNat / 2 ^ 16).sum → k < g.bits.length →
              g.bits[k]? = bytes[(off + k) / 8]?.map fun b => b.getLsbD (7 - (off + k) % 8)))
  ∧ ∀ s ecc minv maxv mask boost tab bytes, VersionsInRange minv maxv → MaskInRange mask →
    s.nseg.toNat = tab.length → tab.length ≤ s.cfg.segMax → s.segtab.Holds 0 tab →
    totalBitLen tab ≤ 8 * s.cfg.segdataBytes → bytes.length = (totalBitLen tab + 7) / 8 → s.segdata.Holds 0 bytes →
    (∃ v, minv ≤ v ∧ v ≤ maxv ∧ Fits (cutSegments tab (bytesBits bytes)) ecc v) →
    ∃ t, exec (.encseg ecc minv maxv mask boost) s = .next t ∧ EndsWell t
      ∧ t.cmd = encodeEncseg ecc minv maxv mask boost
      ∧ IsSymbolOf s.cfg (cutSegments tab (bytesBits bytes)) ecc minv maxv mask boost t.sym
      ∧ SameHostSide s t ∧ t.result = s.result

/-- R262, R292: the errors of ENCSEG in the order of its checks: version range, mask range, length range (of NSEG, then
of the lengths), and no version that fits; each ends with no Symbol. -/
def Obligations.EncsegErrorsAreOrdered : Prop :=
  ∀ (s : State) (ecc : Level) (minv maxv : Nat) (mask : Int) (boost : Bool),
    (¬((1 ≤ minv ∧ minv ≤ 40) ∧ 1 ≤ maxv ∧ maxv ≤ 40) →
      ∃ t, exec (.encseg ecc minv maxv mask boost) s = .next t ∧ EndsRaised .versionRange t
        ∧ t.sym = { s.sym with valid := false } ∧ SameHostSide s t ∧ t.result = s.result)
    ∧ ((1 ≤ minv ∧ minv ≤ 40) ∧ 1 ≤ maxv ∧ maxv ≤ 40 →
      (¬(-1 ≤ mask ∧ mask ≤ 7) →
        ∃ t, exec (.encseg ecc minv maxv mask boost) s = .next t ∧ EndsRaised .maskRange t
          ∧ t.sym = { s.sym with valid := false } ∧ SameHostSide s t ∧ t.result = s.result)
      ∧ (-1 ≤ mask ∧ mask ≤ 7 →
        (s.cfg.segMax < s.nseg.toNat →
          ∃ t, exec (.encseg ecc minv maxv mask boost) s = .next t ∧ EndsRaised .lenRange t
            ∧ t.sym = { s.sym with valid := false } ∧ SameHostSide s t ∧ t.result = s.result)
        ∧ ∀ tab, s.nseg.toNat = tab.length → tab.length ≤ s.cfg.segMax → s.segtab.Holds 0 tab →
          (8 * s.cfg.segdataBytes < totalBitLen tab →
            ∃ t, exec (.encseg ecc minv maxv mask boost) s = .next t ∧ EndsRaised .lenRange t
              ∧ t.sym = { s.sym with valid := false } ∧ SameHostSide s t ∧ t.result = s.result)
          ∧ ∀ bytes, totalBitLen tab ≤ 8 * s.cfg.segdataBytes → bytes.length = (totalBitLen tab + 7) / 8 →
            s.segdata.Holds 0 bytes →
            (∀ v, minv ≤ v → v ≤ maxv → ¬Fits (cutSegments tab (bytesBits bytes)) ecc v) →
            ∃ t, exec (.encseg ecc minv maxv mask boost) s = .next t ∧ EndsRaised .noVersionFits t
              ∧ t.sym = { s.sym with valid := false } ∧ SameHostSide s t ∧ t.result = s.result))

/-- R101: ENCTXT and `ENCSEG ecc, 1, 40, -1, 1` on the text's bytes as one segment give the same Symbol. -/
def Obligations.EnctxtIsEncsegOnTheTextsBytes : Prop :=
  ∀ s ecc units bs e, s.cfg.Wf → s.textlen.toNat = units.length → units.length ≤ s.cfg.textMax →
    s.text.Holds 0 units → utf8Expand s.cfg.loneSurrogate units = some bs →
    s.nseg = 1 → s.segtab.read 0 = some e → segNumChars e = bs.length → segBitLen e = 8 * bs.length →
    bs.length ≤ s.cfg.segdataBytes → s.segdata.Holds 0 bs →
    ∃ t u, exec (.enctxt ecc) s = .next t ∧ exec (.encseg ecc 1 40 (-1) true) s = .next u
      ∧ t = { u with cmd := t.cmd }

/-- R263: GETMOD inside the held Symbol's grid puts the module at column x, row y in RESULT and ends well, and so does
its stage S11 on the coordinates in CMD; nothing else is written but CMD, STATUS, ERRCODE and STAGE. -/
def Obligations.GetmodReadsTheModule : Prop :=
  (∀ (s : State) (x y : Int), s.sym.valid = true → (0 ≤ x ∧ x < s.sym.size) → (0 ≤ y ∧ y < s.sym.size) →
      exec (.getmod x y) s = .next { s with
        cmd := encodeGetmod x y, busy := false, done := true, err := false, errcode := 0, stage := .s0,
        result := s.sym.modules.get x.toNat y.toNat })
    ∧ ∀ s : State, s.sym.valid = true → (0 ≤ coordX s.cmd ∧ coordX s.cmd < s.sym.size) →
        (0 ≤ coordY s.cmd ∧ coordY s.cmd < s.sym.size) →
        exec .s11Getm s = .next { s with
          stage := .s0, result := s.sym.modules.get (coordX s.cmd).toNat (coordY s.cmd).toNat }

/-- R263, R27: GETMOD outside the grid, or with no Symbol held, ends with COORD_RANGE and leaves RESULT and SYM; and so
does its stage S11. -/
def Obligations.GetmodOutsideTheGridRaises : Prop :=
  (∀ (s : State) (x y : Int),
      (s.sym.valid = false ∨ x < 0 ∨ (s.sym.size : Int) ≤ x ∨ y < 0 ∨ (s.sym.size : Int) ≤ y) →
      exec (.getmod x y) s = .next { s with
        cmd := encodeGetmod x y, busy := false, done := true, err := true, errcode := 0x41, stage := .s0 })
    ∧ ∀ s : State, (s.sym.valid = false ∨ coordX s.cmd < 0 ∨ (s.sym.size : Int) ≤ coordX s.cmd ∨ coordY s.cmd < 0
          ∨ (s.sym.size : Int) ≤ coordY s.cmd) →
        exec .s11Getm s = .next { s with busy := false, done := true, err := true, errcode := 0x41, stage := .s0 }

/-- R35, R95, R250: a level row latches its level as the requested one and changes nothing else, and has the ordinal and
the format value of its row. That latching REQ_ECL is the row's effect is the model's choice (notes/assumptions/7.md). -/
def Obligations.LevelRowsLatchTheirLevel : Prop :=
  ∀ i l (o : BitVec 2) (f : Nat), (i, l, o, f) ∈ [(Instr.eccLow, Level.low, 0, 1), (.eccMedium, .medium, 1, 0),
      (.eccQuartile, .quartile, 2, 3), (.eccHigh, .high, 3, 2)] →
    l.ord = o ∧ fmt l = f ∧ decode (.level o) = .ok i ∧ levelOfOrd o = l
      ∧ ∀ s : State, exec i s = .next { s with work := { s.work with reqEcl := l } }

/-! ### Whole-machine rules -/

/-- R40, R260: a command as one step is its stages, one by one, from its start to the return to S0. Going through a command
stage by stage, with its completion in S0 while BUSY is 1, is the model's own reading (notes/assumptions/8.md). -/
def Obligations.CommandIsItsStagesInOrder : Prop :=
  (∀ s ecc, exec (.enctxt ecc) s
      = runStages 12 (setStage .s1 (latchOperands ecc 1 40 (-1) true (startEncode (encodeEnctxt ecc) s))))
    ∧ (∀ s ecc minv maxv mask boost segs, VersionsInRange minv maxv → MaskInRange mask →
        (∀ k, loadSegments (startEncode (encodeEncseg ecc minv maxv mask boost) s) k = k segs) →
        exec (.encseg ecc minv maxv mask boost) s
          = runStages 12 (setStage .s2 (latchOperands ecc minv maxv mask boost
              (setWork { Work.reset with segs := segs } (startEncode (encodeEncseg ecc minv maxv mask boost) s)))))
    ∧ ∀ s x y, CoordOperandFits x → CoordOperandFits y →
        exec (.getmod x y) s = runStages 2 (setStage .s11 (startCommand (encodeGetmod x y) s))

/-- R266 (1): the outcome of an encode command depends on its word, its length register and buffers and the
configuration, and on nothing that ran before. -/
def Obligations.EncodingIsDeterministic : Prop :=
  (∀ s t ecc s', s.cfg = t.cfg → s.textlen = t.textlen → s.text = t.text → exec (.enctxt ecc) s = .next s' →
      ∃ t', exec (.enctxt ecc) t = .next t' ∧ readReg 1 t' = readReg 1 s' ∧ readReg 2 t' = readReg 2 s'
        ∧ readReg 6 t' = readReg 6 s' ∧ (s'.sym.valid = true → t'.sym = s'.sym))
    ∧ ∀ s t ecc minv maxv mask boost s', s.cfg = t.cfg → s.nseg = t.nseg → s.segtab = t.segtab → s.segdata = t.segdata →
      exec (.encseg ecc minv maxv mask boost) s = .next s' →
      ∃ t', exec (.encseg ecc minv maxv mask boost) t = .next t' ∧ readReg 1 t' = readReg 1 s' ∧ readReg 2 t' = readReg 2 s'
        ∧ readReg 6 t' = readReg 6 s' ∧ (s'.sym.valid = true → t'.sym = s'.sym)

/-- R266 (3), R284: an encode command that is not refused ends idle, and holds a Symbol exactly where it ended without
error. -/
def Obligations.EncodingIsAllOrNothing : Prop :=
  ∀ i s t, ((∃ ecc, i = .enctxt ecc) ∨ ∃ ecc minv maxv mask boost, i = .encseg ecc minv maxv mask boost) →
    exec i s = .next t →
    t.busy = false ∧ t.stage = .s0 ∧ t.done = true
      ∧ ((t.err = false ∧ t.errcode = 0 ∧ t.sym.valid = true)
        ∨ (t.err = true ∧ (∃ c : Cause, t.errcode = c.code) ∧ t.sym.valid = false))

/-- R60, R25, R26, R44: no operation of QRSE writes an input buffer, a length register or the configuration. -/
def Obligations.OperationsNeverWriteTheHostsSide : Prop :=
  ∀ i s t, exec i s = .next t → SameHostSide s t

/-- R33, R27: SYM is written by the encode commands and S10 only, and RESULT by GETMOD and S11 only. -/
def Obligations.SymbolAndResultHaveOneWriter : Prop :=
  ∀ i s t, exec i s = .next t →
    ((∀ ecc, i ≠ .enctxt ecc) → (∀ ecc minv maxv mask boost, i ≠ .encseg ecc minv maxv mask boost) → i ≠ .s10Final →
      t.sym = s.sym)
    ∧ ((∀ x y, i ≠ .getmod x y) → i ≠ .s11Getm → t.result = s.result)

/-- R40, R23: from idle, a step ends idle: no step shows BUSY as 1 or STAGE other than S0. -/
def Obligations.IdleStepsEndIdle : Prop :=
  ∀ s t, s.busy = false → s.stage = .s0 → step s = .next t → t.busy = false ∧ t.stage = .s0

/-- R318, R283: the only stops are an access outside a buffer, and an encode command that reads a buffer element no host
write has set. That these end the run, by a fault and by a refusal, is the model's choice (notes/assumptions/3.md,
9.md). -/
def Obligations.OnlyTwoStops : Prop :=
  (∀ s r, step s = .fault r → ∃ sp a n, r = .noSuchElement sp a n ∧ s.cfg.elements sp < a + n)
    ∧ ∀ s r, step s = .refused r →
        (∃ i, r = .unwrittenElement .text i ∧ i < s.textlen.toNat ∧ s.text.read i = none)
        ∨ (∃ i, r = .unwrittenElement .segtab i ∧ i < s.nseg.toNat ∧ s.segtab.read i = none)
        ∨ ∃ i, r = .unwrittenElement .segdata i ∧ i < s.cfg.segdataBytes ∧ s.segdata.read i = none

/-- The invariant is kept by every step: R24, R33, R40, R41, R60 and R9. -/
def Obligations.StepKeepsTheInvariant : Prop :=
  ∀ s t, s.Inv → step s = .next t → t.Inv

/-- The invariant holds after reset (R46, R310); the reset values of the hidden state are the model's choice
(notes/assumptions/4.md, 6.md). -/
def Obligations.ResetMeetsTheInvariant : Prop :=
  State.reset.Inv
end

