-- ==== Sys2Proof/Laws/Buffers.lean ====
section
/-! SUPPORT. The buffers: reads after writes, the canonical form kept, and what a run of reads answers. -/

namespace Sys2Proof.Machine

variable {w : Nat}

theorem risingFrom_mono {lo lo' : Nat} {l : List (Nat × BitVec w)} (h : lo ≤ lo') (hr : risingFrom lo' l = true) :
    risingFrom lo l = true := by
  cases l with
  | nil => rfl
  | cons p rest => simp [risingFrom] at hr ⊢; exact ⟨by omega, hr.2⟩

theorem lookupCell_below {lo i : Nat} {l : List (Nat × BitVec w)} (hr : risingFrom lo l = true) (h : i < lo) :
    lookupCell i l = none := by
  induction l generalizing lo with
  | nil => rfl
  | cons p rest ih =>
    simp [risingFrom] at hr
    simp [lookupCell, show p.1 ≠ i by omega, ih hr.2 (by omega)]

theorem lookupCell_insert_same (i : Nat) (v : BitVec w) (l : List (Nat × BitVec w)) :
    lookupCell i (insertCell i v l) = some v := by
  induction l with
  | nil => simp [insertCell, lookupCell]
  | cons p rest ih =>
    simp only [insertCell]
    split
    · simp [lookupCell]
    · split
      · simp [lookupCell]
      · simp [lookupCell, show p.1 ≠ i by omega, ih]

theorem lookupCell_insert_other {i j : Nat} (v : BitVec w) (l : List (Nat × BitVec w)) (h : j ≠ i) :
    lookupCell j (insertCell i v l) = lookupCell j l := by
  induction l with
  | nil => simp [insertCell, lookupCell, Ne.symm h]
  | cons p rest ih =>
    simp only [insertCell]
    split
    · simp [lookupCell, Ne.symm h]
    · split
      · simp [lookupCell, Ne.symm h, show p.1 ≠ j by omega]
      · simp [lookupCell, ih]

theorem risingFrom_insert {lo i : Nat} (v : BitVec w) {l : List (Nat × BitVec w)} (hr : risingFrom lo l = true)
    (h : lo ≤ i) : risingFrom lo (insertCell i v l) = true := by
  induction l generalizing lo with
  | nil => simp [insertCell, risingFrom, h]
  | cons p rest ih =>
    simp [risingFrom] at hr
    simp only [insertCell]
    split
    · simp [risingFrom, h, hr.2]; omega
    · split
      · subst_vars; simp [risingFrom, hr]
      · simp only [risingFrom, Bool.and_eq_true, decide_eq_true_eq]
        exact ⟨hr.1, ih hr.2 (by omega)⟩

/-- A write is read back. -/
@[simp] theorem read_write_same (b : Buffer w) (i : Nat) (v : BitVec w) : (b.write i v).read i = some v :=
  lookupCell_insert_same i v b.cells

/-- A write leaves every other element. -/
theorem read_write_other (b : Buffer w) {i j : Nat} (v : BitVec w) (h : j ≠ i) : (b.write i v).read j = b.read j :=
  lookupCell_insert_other v b.cells h

/-- A write keeps the canonical form. -/
theorem write_keeps_wf (b : Buffer w) (i : Nat) (v : BitVec w) (h : b.wf = true) : (b.write i v).wf = true :=
  risingFrom_insert v h (Nat.zero_le i)

/-- A run of writes keeps the canonical form. -/
theorem writeRun_keeps_wf (b : Buffer w) (a : Nat) (vs : List (BitVec w)) (h : b.wf = true) :
    (b.writeRun a vs).wf = true := by
  induction vs generalizing a b with
  | nil => exact h
  | cons v vs ih => exact ih (b.write a v) (a + 1) (write_keeps_wf b a v h)

/-- What a run of reads answers: the values, where the buffer holds each of them. -/
theorem readRun_ok_iff (b : Buffer w) (a n : Nat) (vs : List (BitVec w)) :
    b.readRun a n = .ok vs ↔ vs.length = n ∧ b.Holds a vs := by
  induction n generalizing a vs with
  | zero =>
    constructor
    · intro h; simp [Buffer.readRun] at h; subst h; exact ⟨rfl, fun k hk => by simp at hk⟩
    · rintro ⟨h, -⟩; rw [List.length_eq_zero_iff] at h; subst h; rfl
  | succ n ih =>
    constructor
    · intro h
      simp only [Buffer.readRun] at h
      split at h
      · simp at h
      · rename_i v hv
        split at h
        · simp at h
        · rename_i us hu
          simp at h; subst h
          obtain ⟨hl, hh⟩ := (ih (a + 1) us).mp hu
          refine ⟨by simp [hl], fun k hk => ?_⟩
          cases k with
          | zero => simpa using hv
          | succ k => simpa [Nat.add_assoc, Nat.add_comm 1 k] using hh k (by simpa using hk)
    · rintro ⟨hl, hh⟩
      cases vs with
      | nil => simp at hl
      | cons v us =>
        have hv : b.read a = some v := by simpa using hh 0 (by simp)
        have hu : b.readRun (a + 1) n = .ok us := by
          refine (ih (a + 1) us).mpr ⟨by simpa using hl, fun k hk => ?_⟩
          simpa [Nat.add_assoc, Nat.add_comm 1 k] using hh (k + 1) (by simpa using hk)
        simp [Buffer.readRun, hv, hu]

/-- What a run of reads answers: the first index that was never written, where there is one. -/
theorem readRun_error_iff (b : Buffer w) (a n i : Nat) :
    b.readRun a n = .error i ↔ (a ≤ i ∧ i < a + n) ∧ b.read i = none ∧ ∀ j, a ≤ j → j < i → b.read j ≠ none := by
  induction n generalizing a with
  | zero =>
    constructor
    · intro h; simp [Buffer.readRun] at h
    · rintro ⟨⟨h1, h2⟩, -⟩; omega
  | succ n ih =>
    cases hv : b.read a with
    | none =>
      simp only [Buffer.readRun, hv]
      constructor
      · intro h; simp at h; subst h; exact ⟨⟨le_refl _, by omega⟩, hv, fun j h1 h2 => by omega⟩
      · rintro ⟨⟨h1, h2⟩, h3, h4⟩
        rcases Nat.lt_or_ge a i with h | h
        · exact absurd hv (h4 a (le_refl _) h)
        · rw [show i = a by omega]
    | some v =>
      have hs : b.readRun a (n + 1) = .error i ↔ b.readRun (a + 1) n = .error i := by
        simp only [Buffer.readRun, hv]
        cases b.readRun (a + 1) n <;> simp
      rw [hs, ih (a + 1)]
      constructor
      · rintro ⟨⟨h1, h2⟩, h3, h4⟩
        refine ⟨⟨by omega, by omega⟩, h3, fun j hj1 hj2 => ?_⟩
        rcases Nat.lt_or_ge a j with h | h
        · exact h4 j (by omega) hj2
        · rw [show j = a by omega, hv]; simp
      · rintro ⟨⟨h1, h2⟩, h3, h4⟩
        have : a ≠ i := by intro h; rw [← h, hv] at h3; simp at h3
        exact ⟨⟨by omega, by omega⟩, h3, fun j hj1 hj2 => h4 j (by omega) hj2⟩

/-- The buffers of the reset state have the canonical form. -/
theorem reset_buffers_wf :
    State.reset.text.wf = true ∧ State.reset.segtab.wf = true ∧ State.reset.segdata.wf = true := ⟨rfl, rfl, rfl⟩

end Sys2Proof.Machine
end

