-- ==== Sys2Proof/Laws/Grids.lean ====
section
/-! SUPPORT. Reads, writes and shapes of grids. -/

namespace Sys2Proof.Machine

/-- A grid of side n, as its two conditions. -/
theorem square_iff (g : Grid) (n : Nat) : g.square n = true ↔ g.rows.length = n ∧ ∀ row ∈ g.rows, row.length = n := by
  simp [Grid.square]

/-- A built grid reads as its function inside, and light outside. -/
theorem get_build (n : Nat) (p : Nat → Nat → Bool) (x y : Nat) :
    (Grid.build n p).get x y = (decide (x < n ∧ y < n) && p x y) := by
  unfold Grid.get Grid.build
  by_cases hy : y < n
  · by_cases hx : x < n <;> simp [List.getD, hx, hy]
  · simp [List.getD, hy]

theorem build_square (n : Nat) (p : Nat → Nat → Bool) : (Grid.build n p).square n = true := by
  simp [square_iff, Grid.build]

theorem blank_square (n : Nat) : (Grid.blank n).square n = true := by
  simp [square_iff, Grid.blank]

/-- A write reads back where it lands in the grid, and leaves every other module. -/
theorem get_set (g : Grid) (n x y x' y' : Nat) (b : Bool) (h : g.square n = true) :
    (g.set x y b).get x' y' = if x' = x ∧ y' = y ∧ x < n ∧ y < n then b else g.get x' y' := by
  obtain ⟨hl, hr⟩ := (square_iff g n).mp h
  unfold Grid.get Grid.set
  simp only [List.getD, List.getElem?_modify]
  by_cases hy : y' < g.rows.length
  · have hrow : (g.rows[y']).length = n := hr _ (List.getElem_mem hy)
    by_cases hyy : y = y'
    · subst hyy
      by_cases hxx : x = x'
      · subst hxx
        by_cases hx : x < n
        · simp [hy, hrow, hx, hl ▸ hy]
        · simp [hy, hrow, hx]
      · simp [hy, hxx, Ne.symm hxx]
    · simp [hyy, Ne.symm hyy]
  · have hy2 : g.rows.length ≤ y' := Nat.le_of_not_lt hy
    have : ¬(y' = y ∧ y < n) := by rintro ⟨h1, h2⟩; omega
    have h2 : ¬(x' = x ∧ y' = y ∧ x < n ∧ y < n) := by rintro ⟨-, h1, -, h2⟩; omega
    simp [List.getElem?_eq_none hy2, h2]

theorem set_square (g : Grid) (n x y : Nat) (b : Bool) (h : g.square n = true) : (g.set x y b).square n = true := by
  obtain ⟨hl, hr⟩ := (square_iff g n).mp h
  rw [square_iff]
  refine ⟨by simp [Grid.set, hl], fun row hrow => ?_⟩
  simp only [Grid.set] at hrow
  obtain ⟨k, hk, rfl⟩ := List.mem_iff_getElem.mp hrow
  have hk' : k < g.rows.length := by simpa using hk
  rw [List.getElem_modify]
  split
  · simpa using hr _ (List.getElem_mem hk')
  · exact hr _ (List.getElem_mem hk')

/-- `SetFn` keeps the shape of both grids. -/
theorem setFnAll_square (cells : List (Nat × Nat × Bool)) (c : Canvas)
    (hm : c.m.square c.size = true) (hf : c.f.square c.size = true) :
    (setFnAll cells c).size = c.size ∧ (setFnAll cells c).m.square c.size = true
      ∧ (setFnAll cells c).f.square c.size = true := by
  induction cells generalizing c with
  | nil => exact ⟨rfl, hm, hf⟩
  | cons p rest ih =>
    exact ih (setFn p.1 p.2.1 p.2.2 c) (set_square _ _ _ _ _ hm) (set_square _ _ _ _ _ hf)

end Sys2Proof.Machine
end

