-- ==== Sys2Proof/Laws/State.lean ====
section
/-! SUPPORT. What each named update of the state does to each field, true by definition. -/

namespace Sys2Proof.Machine

/-! ### setStage -/

@[simp] theorem setStage_cfg (p : Stage) (s : State) : (setStage p s).cfg = s.cfg := rfl
@[simp] theorem setStage_cmd (p : Stage) (s : State) : (setStage p s).cmd = s.cmd := rfl
@[simp] theorem setStage_busy (p : Stage) (s : State) : (setStage p s).busy = s.busy := rfl
@[simp] theorem setStage_done (p : Stage) (s : State) : (setStage p s).done = s.done := rfl
@[simp] theorem setStage_err (p : Stage) (s : State) : (setStage p s).err = s.err := rfl
@[simp] theorem setStage_errcode (p : Stage) (s : State) : (setStage p s).errcode = s.errcode := rfl
@[simp] theorem setStage_textlen (p : Stage) (s : State) : (setStage p s).textlen = s.textlen := rfl
@[simp] theorem setStage_nseg (p : Stage) (s : State) : (setStage p s).nseg = s.nseg := rfl
@[simp] theorem setStage_result (p : Stage) (s : State) : (setStage p s).result = s.result := rfl
@[simp] theorem setStage_text (p : Stage) (s : State) : (setStage p s).text = s.text := rfl
@[simp] theorem setStage_segtab (p : Stage) (s : State) : (setStage p s).segtab = s.segtab := rfl
@[simp] theorem setStage_segdata (p : Stage) (s : State) : (setStage p s).segdata = s.segdata := rfl
@[simp] theorem setStage_sym (p : Stage) (s : State) : (setStage p s).sym = s.sym := rfl
@[simp] theorem setStage_stage (p : Stage) (s : State) : (setStage p s).stage = p := rfl
@[simp] theorem setStage_work (p : Stage) (s : State) : (setStage p s).work = s.work := rfl
@[simp] theorem setStage_pending (p : Stage) (s : State) : (setStage p s).pending = s.pending := rfl
@[simp] theorem setStage_readData (p : Stage) (s : State) : (setStage p s).readData = s.readData := rfl
@[simp] theorem setStage_epoch (p : Stage) (s : State) : (setStage p s).epoch = s.epoch := rfl

/-! ### setWork -/

@[simp] theorem setWork_cfg (w : Work) (s : State) : (setWork w s).cfg = s.cfg := rfl
@[simp] theorem setWork_cmd (w : Work) (s : State) : (setWork w s).cmd = s.cmd := rfl
@[simp] theorem setWork_busy (w : Work) (s : State) : (setWork w s).busy = s.busy := rfl
@[simp] theorem setWork_done (w : Work) (s : State) : (setWork w s).done = s.done := rfl
@[simp] theorem setWork_err (w : Work) (s : State) : (setWork w s).err = s.err := rfl
@[simp] theorem setWork_errcode (w : Work) (s : State) : (setWork w s).errcode = s.errcode := rfl
@[simp] theorem setWork_textlen (w : Work) (s : State) : (setWork w s).textlen = s.textlen := rfl
@[simp] theorem setWork_nseg (w : Work) (s : State) : (setWork w s).nseg = s.nseg := rfl
@[simp] theorem setWork_result (w : Work) (s : State) : (setWork w s).result = s.result := rfl
@[simp] theorem setWork_text (w : Work) (s : State) : (setWork w s).text = s.text := rfl
@[simp] theorem setWork_segtab (w : Work) (s : State) : (setWork w s).segtab = s.segtab := rfl
@[simp] theorem setWork_segdata (w : Work) (s : State) : (setWork w s).segdata = s.segdata := rfl
@[simp] theorem setWork_sym (w : Work) (s : State) : (setWork w s).sym = s.sym := rfl
@[simp] theorem setWork_stage (w : Work) (s : State) : (setWork w s).stage = s.stage := rfl
@[simp] theorem setWork_work (w : Work) (s : State) : (setWork w s).work = w := rfl
@[simp] theorem setWork_pending (w : Work) (s : State) : (setWork w s).pending = s.pending := rfl
@[simp] theorem setWork_readData (w : Work) (s : State) : (setWork w s).readData = s.readData := rfl
@[simp] theorem setWork_epoch (w : Work) (s : State) : (setWork w s).epoch = s.epoch := rfl

/-! ### startCommand -/

@[simp] theorem startCommand_cfg (w : Word) (s : State) : (startCommand w s).cfg = s.cfg := rfl
@[simp] theorem startCommand_cmd (w : Word) (s : State) : (startCommand w s).cmd = w := rfl
@[simp] theorem startCommand_busy (w : Word) (s : State) : (startCommand w s).busy = true := rfl
@[simp] theorem startCommand_done (w : Word) (s : State) : (startCommand w s).done = s.done := rfl
@[simp] theorem startCommand_err (w : Word) (s : State) : (startCommand w s).err = false := rfl
@[simp] theorem startCommand_errcode (w : Word) (s : State) : (startCommand w s).errcode = s.errcode := rfl
@[simp] theorem startCommand_textlen (w : Word) (s : State) : (startCommand w s).textlen = s.textlen := rfl
@[simp] theorem startCommand_nseg (w : Word) (s : State) : (startCommand w s).nseg = s.nseg := rfl
@[simp] theorem startCommand_result (w : Word) (s : State) : (startCommand w s).result = s.result := rfl
@[simp] theorem startCommand_text (w : Word) (s : State) : (startCommand w s).text = s.text := rfl
@[simp] theorem startCommand_segtab (w : Word) (s : State) : (startCommand w s).segtab = s.segtab := rfl
@[simp] theorem startCommand_segdata (w : Word) (s : State) : (startCommand w s).segdata = s.segdata := rfl
@[simp] theorem startCommand_sym (w : Word) (s : State) : (startCommand w s).sym = s.sym := rfl
@[simp] theorem startCommand_stage (w : Word) (s : State) : (startCommand w s).stage = s.stage := rfl
@[simp] theorem startCommand_work (w : Word) (s : State) : (startCommand w s).work = s.work := rfl
@[simp] theorem startCommand_pending (w : Word) (s : State) : (startCommand w s).pending = s.pending := rfl
@[simp] theorem startCommand_readData (w : Word) (s : State) : (startCommand w s).readData = s.readData := rfl
@[simp] theorem startCommand_epoch (w : Word) (s : State) : (startCommand w s).epoch = s.epoch := rfl

/-! ### invalidate -/

@[simp] theorem invalidate_cfg (s : State) : (invalidate s).cfg = s.cfg := rfl
@[simp] theorem invalidate_cmd (s : State) : (invalidate s).cmd = s.cmd := rfl
@[simp] theorem invalidate_busy (s : State) : (invalidate s).busy = s.busy := rfl
@[simp] theorem invalidate_done (s : State) : (invalidate s).done = s.done := rfl
@[simp] theorem invalidate_err (s : State) : (invalidate s).err = s.err := rfl
@[simp] theorem invalidate_errcode (s : State) : (invalidate s).errcode = s.errcode := rfl
@[simp] theorem invalidate_textlen (s : State) : (invalidate s).textlen = s.textlen := rfl
@[simp] theorem invalidate_nseg (s : State) : (invalidate s).nseg = s.nseg := rfl
@[simp] theorem invalidate_result (s : State) : (invalidate s).result = s.result := rfl
@[simp] theorem invalidate_text (s : State) : (invalidate s).text = s.text := rfl
@[simp] theorem invalidate_segtab (s : State) : (invalidate s).segtab = s.segtab := rfl
@[simp] theorem invalidate_segdata (s : State) : (invalidate s).segdata = s.segdata := rfl
@[simp] theorem invalidate_sym (s : State) : (invalidate s).sym = { s.sym with valid := false } := rfl
@[simp] theorem invalidate_stage (s : State) : (invalidate s).stage = s.stage := rfl
@[simp] theorem invalidate_work (s : State) : (invalidate s).work = s.work := rfl
@[simp] theorem invalidate_pending (s : State) : (invalidate s).pending = s.pending := rfl
@[simp] theorem invalidate_readData (s : State) : (invalidate s).readData = s.readData := rfl
@[simp] theorem invalidate_epoch (s : State) : (invalidate s).epoch = s.epoch := rfl

/-! ### startEncode -/

@[simp] theorem startEncode_cfg (w : Word) (s : State) : (startEncode w s).cfg = s.cfg := rfl
@[simp] theorem startEncode_cmd (w : Word) (s : State) : (startEncode w s).cmd = w := rfl
@[simp] theorem startEncode_busy (w : Word) (s : State) : (startEncode w s).busy = true := rfl
@[simp] theorem startEncode_done (w : Word) (s : State) : (startEncode w s).done = s.done := rfl
@[simp] theorem startEncode_err (w : Word) (s : State) : (startEncode w s).err = false := rfl
@[simp] theorem startEncode_errcode (w : Word) (s : State) : (startEncode w s).errcode = s.errcode := rfl
@[simp] theorem startEncode_textlen (w : Word) (s : State) : (startEncode w s).textlen = s.textlen := rfl
@[simp] theorem startEncode_nseg (w : Word) (s : State) : (startEncode w s).nseg = s.nseg := rfl
@[simp] theorem startEncode_result (w : Word) (s : State) : (startEncode w s).result = s.result := rfl
@[simp] theorem startEncode_text (w : Word) (s : State) : (startEncode w s).text = s.text := rfl
@[simp] theorem startEncode_segtab (w : Word) (s : State) : (startEncode w s).segtab = s.segtab := rfl
@[simp] theorem startEncode_segdata (w : Word) (s : State) : (startEncode w s).segdata = s.segdata := rfl
@[simp] theorem startEncode_sym (w : Word) (s : State) : (startEncode w s).sym = { s.sym with valid := false } := rfl
@[simp] theorem startEncode_stage (w : Word) (s : State) : (startEncode w s).stage = s.stage := rfl
@[simp] theorem startEncode_work (w : Word) (s : State) : (startEncode w s).work = Work.reset := rfl
@[simp] theorem startEncode_pending (w : Word) (s : State) : (startEncode w s).pending = s.pending := rfl
@[simp] theorem startEncode_readData (w : Word) (s : State) : (startEncode w s).readData = s.readData := rfl
@[simp] theorem startEncode_epoch (w : Word) (s : State) : (startEncode w s).epoch = s.epoch := rfl

/-! ### complete -/

@[simp] theorem complete_cfg (s : State) : (complete s).cfg = s.cfg := rfl
@[simp] theorem complete_cmd (s : State) : (complete s).cmd = s.cmd := rfl
@[simp] theorem complete_busy (s : State) : (complete s).busy = false := rfl
@[simp] theorem complete_done (s : State) : (complete s).done = true := rfl
@[simp] theorem complete_err (s : State) : (complete s).err = s.err := rfl
@[simp] theorem complete_errcode (s : State) : (complete s).errcode = 0 := rfl
@[simp] theorem complete_textlen (s : State) : (complete s).textlen = s.textlen := rfl
@[simp] theorem complete_nseg (s : State) : (complete s).nseg = s.nseg := rfl
@[simp] theorem complete_result (s : State) : (complete s).result = s.result := rfl
@[simp] theorem complete_text (s : State) : (complete s).text = s.text := rfl
@[simp] theorem complete_segtab (s : State) : (complete s).segtab = s.segtab := rfl
@[simp] theorem complete_segdata (s : State) : (complete s).segdata = s.segdata := rfl
@[simp] theorem complete_sym (s : State) : (complete s).sym = s.sym := rfl
@[simp] theorem complete_stage (s : State) : (complete s).stage = .s0 := rfl
@[simp] theorem complete_work (s : State) : (complete s).work = s.work := rfl
@[simp] theorem complete_pending (s : State) : (complete s).pending = s.pending := rfl
@[simp] theorem complete_readData (s : State) : (complete s).readData = s.readData := rfl
@[simp] theorem complete_epoch (s : State) : (complete s).epoch = s.epoch := rfl

/-! ### raise -/

@[simp] theorem raise_cfg (c : Cause) (s : State) : (raise c s).cfg = s.cfg := rfl
@[simp] theorem raise_cmd (c : Cause) (s : State) : (raise c s).cmd = s.cmd := rfl
@[simp] theorem raise_busy (c : Cause) (s : State) : (raise c s).busy = false := rfl
@[simp] theorem raise_done (c : Cause) (s : State) : (raise c s).done = true := rfl
@[simp] theorem raise_err (c : Cause) (s : State) : (raise c s).err = true := rfl
@[simp] theorem raise_errcode (c : Cause) (s : State) : (raise c s).errcode = c.code := rfl
@[simp] theorem raise_textlen (c : Cause) (s : State) : (raise c s).textlen = s.textlen := rfl
@[simp] theorem raise_nseg (c : Cause) (s : State) : (raise c s).nseg = s.nseg := rfl
@[simp] theorem raise_result (c : Cause) (s : State) : (raise c s).result = s.result := rfl
@[simp] theorem raise_text (c : Cause) (s : State) : (raise c s).text = s.text := rfl
@[simp] theorem raise_segtab (c : Cause) (s : State) : (raise c s).segtab = s.segtab := rfl
@[simp] theorem raise_segdata (c : Cause) (s : State) : (raise c s).segdata = s.segdata := rfl
@[simp] theorem raise_sym (c : Cause) (s : State) : (raise c s).sym = s.sym := rfl
@[simp] theorem raise_stage (c : Cause) (s : State) : (raise c s).stage = .s0 := rfl
@[simp] theorem raise_work (c : Cause) (s : State) : (raise c s).work = s.work := rfl
@[simp] theorem raise_pending (c : Cause) (s : State) : (raise c s).pending = s.pending := rfl
@[simp] theorem raise_readData (c : Cause) (s : State) : (raise c s).readData = s.readData := rfl
@[simp] theorem raise_epoch (c : Cause) (s : State) : (raise c s).epoch = s.epoch := rfl

/-! ### commit -/

@[simp] theorem commit_cfg (y : Sym) (s : State) : (commit y s).cfg = s.cfg := rfl
@[simp] theorem commit_cmd (y : Sym) (s : State) : (commit y s).cmd = s.cmd := rfl
@[simp] theorem commit_busy (y : Sym) (s : State) : (commit y s).busy = s.busy := rfl
@[simp] theorem commit_done (y : Sym) (s : State) : (commit y s).done = s.done := rfl
@[simp] theorem commit_err (y : Sym) (s : State) : (commit y s).err = s.err := rfl
@[simp] theorem commit_errcode (y : Sym) (s : State) : (commit y s).errcode = s.errcode := rfl
@[simp] theorem commit_textlen (y : Sym) (s : State) : (commit y s).textlen = s.textlen := rfl
@[simp] theorem commit_nseg (y : Sym) (s : State) : (commit y s).nseg = s.nseg := rfl
@[simp] theorem commit_result (y : Sym) (s : State) : (commit y s).result = s.result := rfl
@[simp] theorem commit_text (y : Sym) (s : State) : (commit y s).text = s.text := rfl
@[simp] theorem commit_segtab (y : Sym) (s : State) : (commit y s).segtab = s.segtab := rfl
@[simp] theorem commit_segdata (y : Sym) (s : State) : (commit y s).segdata = s.segdata := rfl
@[simp] theorem commit_sym (y : Sym) (s : State) : (commit y s).sym = y := rfl
@[simp] theorem commit_stage (y : Sym) (s : State) : (commit y s).stage = s.stage := rfl
@[simp] theorem commit_work (y : Sym) (s : State) : (commit y s).work = s.work := rfl
@[simp] theorem commit_pending (y : Sym) (s : State) : (commit y s).pending = s.pending := rfl
@[simp] theorem commit_readData (y : Sym) (s : State) : (commit y s).readData = s.readData := rfl
@[simp] theorem commit_epoch (y : Sym) (s : State) : (commit y s).epoch = s.epoch := rfl

/-! ### setResult -/

@[simp] theorem setResult_cfg (b : Bool) (s : State) : (setResult b s).cfg = s.cfg := rfl
@[simp] theorem setResult_cmd (b : Bool) (s : State) : (setResult b s).cmd = s.cmd := rfl
@[simp] theorem setResult_busy (b : Bool) (s : State) : (setResult b s).busy = s.busy := rfl
@[simp] theorem setResult_done (b : Bool) (s : State) : (setResult b s).done = s.done := rfl
@[simp] theorem setResult_err (b : Bool) (s : State) : (setResult b s).err = s.err := rfl
@[simp] theorem setResult_errcode (b : Bool) (s : State) : (setResult b s).errcode = s.errcode := rfl
@[simp] theorem setResult_textlen (b : Bool) (s : State) : (setResult b s).textlen = s.textlen := rfl
@[simp] theorem setResult_nseg (b : Bool) (s : State) : (setResult b s).nseg = s.nseg := rfl
@[simp] theorem setResult_result (b : Bool) (s : State) : (setResult b s).result = b := rfl
@[simp] theorem setResult_text (b : Bool) (s : State) : (setResult b s).text = s.text := rfl
@[simp] theorem setResult_segtab (b : Bool) (s : State) : (setResult b s).segtab = s.segtab := rfl
@[simp] theorem setResult_segdata (b : Bool) (s : State) : (setResult b s).segdata = s.segdata := rfl
@[simp] theorem setResult_sym (b : Bool) (s : State) : (setResult b s).sym = s.sym := rfl
@[simp] theorem setResult_stage (b : Bool) (s : State) : (setResult b s).stage = s.stage := rfl
@[simp] theorem setResult_work (b : Bool) (s : State) : (setResult b s).work = s.work := rfl
@[simp] theorem setResult_pending (b : Bool) (s : State) : (setResult b s).pending = s.pending := rfl
@[simp] theorem setResult_readData (b : Bool) (s : State) : (setResult b s).readData = s.readData := rfl
@[simp] theorem setResult_epoch (b : Bool) (s : State) : (setResult b s).epoch = s.epoch := rfl

/-! ### returnData -/

@[simp] theorem returnData_cfg (vs : List Word) (s : State) : (returnData vs s).cfg = s.cfg := rfl
@[simp] theorem returnData_cmd (vs : List Word) (s : State) : (returnData vs s).cmd = s.cmd := rfl
@[simp] theorem returnData_busy (vs : List Word) (s : State) : (returnData vs s).busy = s.busy := rfl
@[simp] theorem returnData_done (vs : List Word) (s : State) : (returnData vs s).done = s.done := rfl
@[simp] theorem returnData_err (vs : List Word) (s : State) : (returnData vs s).err = s.err := rfl
@[simp] theorem returnData_errcode (vs : List Word) (s : State) : (returnData vs s).errcode = s.errcode := rfl
@[simp] theorem returnData_textlen (vs : List Word) (s : State) : (returnData vs s).textlen = s.textlen := rfl
@[simp] theorem returnData_nseg (vs : List Word) (s : State) : (returnData vs s).nseg = s.nseg := rfl
@[simp] theorem returnData_result (vs : List Word) (s : State) : (returnData vs s).result = s.result := rfl
@[simp] theorem returnData_text (vs : List Word) (s : State) : (returnData vs s).text = s.text := rfl
@[simp] theorem returnData_segtab (vs : List Word) (s : State) : (returnData vs s).segtab = s.segtab := rfl
@[simp] theorem returnData_segdata (vs : List Word) (s : State) : (returnData vs s).segdata = s.segdata := rfl
@[simp] theorem returnData_sym (vs : List Word) (s : State) : (returnData vs s).sym = s.sym := rfl
@[simp] theorem returnData_stage (vs : List Word) (s : State) : (returnData vs s).stage = s.stage := rfl
@[simp] theorem returnData_work (vs : List Word) (s : State) : (returnData vs s).work = s.work := rfl
@[simp] theorem returnData_pending (vs : List Word) (s : State) : (returnData vs s).pending = s.pending := rfl
@[simp] theorem returnData_readData (vs : List Word) (s : State) : (returnData vs s).readData = vs := rfl
@[simp] theorem returnData_epoch (vs : List Word) (s : State) : (returnData vs s).epoch = s.epoch := rfl

/-! ### latchLevel -/

@[simp] theorem latchLevel_cfg (l : Level) (s : State) : (latchLevel l s).cfg = s.cfg := rfl
@[simp] theorem latchLevel_cmd (l : Level) (s : State) : (latchLevel l s).cmd = s.cmd := rfl
@[simp] theorem latchLevel_busy (l : Level) (s : State) : (latchLevel l s).busy = s.busy := rfl
@[simp] theorem latchLevel_done (l : Level) (s : State) : (latchLevel l s).done = s.done := rfl
@[simp] theorem latchLevel_err (l : Level) (s : State) : (latchLevel l s).err = s.err := rfl
@[simp] theorem latchLevel_errcode (l : Level) (s : State) : (latchLevel l s).errcode = s.errcode := rfl
@[simp] theorem latchLevel_textlen (l : Level) (s : State) : (latchLevel l s).textlen = s.textlen := rfl
@[simp] theorem latchLevel_nseg (l : Level) (s : State) : (latchLevel l s).nseg = s.nseg := rfl
@[simp] theorem latchLevel_result (l : Level) (s : State) : (latchLevel l s).result = s.result := rfl
@[simp] theorem latchLevel_text (l : Level) (s : State) : (latchLevel l s).text = s.text := rfl
@[simp] theorem latchLevel_segtab (l : Level) (s : State) : (latchLevel l s).segtab = s.segtab := rfl
@[simp] theorem latchLevel_segdata (l : Level) (s : State) : (latchLevel l s).segdata = s.segdata := rfl
@[simp] theorem latchLevel_sym (l : Level) (s : State) : (latchLevel l s).sym = s.sym := rfl
@[simp] theorem latchLevel_stage (l : Level) (s : State) : (latchLevel l s).stage = s.stage := rfl
@[simp] theorem latchLevel_work (l : Level) (s : State) : (latchLevel l s).work = { s.work with reqEcl := l } := rfl
@[simp] theorem latchLevel_pending (l : Level) (s : State) : (latchLevel l s).pending = s.pending := rfl
@[simp] theorem latchLevel_readData (l : Level) (s : State) : (latchLevel l s).readData = s.readData := rfl
@[simp] theorem latchLevel_epoch (l : Level) (s : State) : (latchLevel l s).epoch = s.epoch := rfl

/-! ### latchOperands -/

@[simp] theorem latchOperands_cfg (l : Level) (a b : Nat) (k : Int) (e : Bool) (s : State) : (latchOperands l a b k e s).cfg = s.cfg := rfl
@[simp] theorem latchOperands_cmd (l : Level) (a b : Nat) (k : Int) (e : Bool) (s : State) : (latchOperands l a b k e s).cmd = s.cmd := rfl
@[simp] theorem latchOperands_busy (l : Level) (a b : Nat) (k : Int) (e : Bool) (s : State) : (latchOperands l a b k e s).busy = s.busy := rfl
@[simp] theorem latchOperands_done (l : Level) (a b : Nat) (k : Int) (e : Bool) (s : State) : (latchOperands l a b k e s).done = s.done := rfl
@[simp] theorem latchOperands_err (l : Level) (a b : Nat) (k : Int) (e : Bool) (s : State) : (latchOperands l a b k e s).err = s.err := rfl
@[simp] theorem latchOperands_errcode (l : Level) (a b : Nat) (k : Int) (e : Bool) (s : State) : (latchOperands l a b k e s).errcode = s.errcode := rfl
@[simp] theorem latchOperands_textlen (l : Level) (a b : Nat) (k : Int) (e : Bool) (s : State) : (latchOperands l a b k e s).textlen = s.textlen := rfl
@[simp] theorem latchOperands_nseg (l : Level) (a b : Nat) (k : Int) (e : Bool) (s : State) : (latchOperands l a b k e s).nseg = s.nseg := rfl
@[simp] theorem latchOperands_result (l : Level) (a b : Nat) (k : Int) (e : Bool) (s : State) : (latchOperands l a b k e s).result = s.result := rfl
@[simp] theorem latchOperands_text (l : Level) (a b : Nat) (k : Int) (e : Bool) (s : State) : (latchOperands l a b k e s).text = s.text := rfl
@[simp] theorem latchOperands_segtab (l : Level) (a b : Nat) (k : Int) (e : Bool) (s : State) : (latchOperands l a b k e s).segtab = s.segtab := rfl
@[simp] theorem latchOperands_segdata (l : Level) (a b : Nat) (k : Int) (e : Bool) (s : State) : (latchOperands l a b k e s).segdata = s.segdata := rfl
@[simp] theorem latchOperands_sym (l : Level) (a b : Nat) (k : Int) (e : Bool) (s : State) : (latchOperands l a b k e s).sym = s.sym := rfl
@[simp] theorem latchOperands_stage (l : Level) (a b : Nat) (k : Int) (e : Bool) (s : State) : (latchOperands l a b k e s).stage = s.stage := rfl
@[simp] theorem latchOperands_work (l : Level) (a b : Nat) (k : Int) (e : Bool) (s : State) : (latchOperands l a b k e s).work = { s.work with reqEcl := l, minv := a, maxv := b, fmask := k, boosten := e } := rfl
@[simp] theorem latchOperands_pending (l : Level) (a b : Nat) (k : Int) (e : Bool) (s : State) : (latchOperands l a b k e s).pending = s.pending := rfl
@[simp] theorem latchOperands_readData (l : Level) (a b : Nat) (k : Int) (e : Bool) (s : State) : (latchOperands l a b k e s).readData = s.readData := rfl
@[simp] theorem latchOperands_epoch (l : Level) (a b : Nat) (k : Int) (e : Bool) (s : State) : (latchOperands l a b k e s).epoch = s.epoch := rfl

/-! ### maskWork -/

@[simp] theorem maskWork_cfg (q : Nat → Nat → Bool) (s : State) : (maskWork q s).cfg = s.cfg := rfl
@[simp] theorem maskWork_cmd (q : Nat → Nat → Bool) (s : State) : (maskWork q s).cmd = s.cmd := rfl
@[simp] theorem maskWork_busy (q : Nat → Nat → Bool) (s : State) : (maskWork q s).busy = s.busy := rfl
@[simp] theorem maskWork_done (q : Nat → Nat → Bool) (s : State) : (maskWork q s).done = s.done := rfl
@[simp] theorem maskWork_err (q : Nat → Nat → Bool) (s : State) : (maskWork q s).err = s.err := rfl
@[simp] theorem maskWork_errcode (q : Nat → Nat → Bool) (s : State) : (maskWork q s).errcode = s.errcode := rfl
@[simp] theorem maskWork_textlen (q : Nat → Nat → Bool) (s : State) : (maskWork q s).textlen = s.textlen := rfl
@[simp] theorem maskWork_nseg (q : Nat → Nat → Bool) (s : State) : (maskWork q s).nseg = s.nseg := rfl
@[simp] theorem maskWork_result (q : Nat → Nat → Bool) (s : State) : (maskWork q s).result = s.result := rfl
@[simp] theorem maskWork_text (q : Nat → Nat → Bool) (s : State) : (maskWork q s).text = s.text := rfl
@[simp] theorem maskWork_segtab (q : Nat → Nat → Bool) (s : State) : (maskWork q s).segtab = s.segtab := rfl
@[simp] theorem maskWork_segdata (q : Nat → Nat → Bool) (s : State) : (maskWork q s).segdata = s.segdata := rfl
@[simp] theorem maskWork_sym (q : Nat → Nat → Bool) (s : State) : (maskWork q s).sym = s.sym := rfl
@[simp] theorem maskWork_stage (q : Nat → Nat → Bool) (s : State) : (maskWork q s).stage = s.stage := rfl
@[simp] theorem maskWork_work (q : Nat → Nat → Bool) (s : State) : (maskWork q s).work = withCanvas (applyPred q (canvasOf s.work)) s.work := rfl
@[simp] theorem maskWork_pending (q : Nat → Nat → Bool) (s : State) : (maskWork q s).pending = s.pending := rfl
@[simp] theorem maskWork_readData (q : Nat → Nat → Bool) (s : State) : (maskWork q s).readData = s.readData := rfl
@[simp] theorem maskWork_epoch (q : Nat → Nat → Bool) (s : State) : (maskWork q s).epoch = s.epoch := rfl

/-! ### hostReset -/

@[simp] theorem hostReset_cfg (rest : List HostAction) (s : State) : (hostReset rest s).cfg = s.cfg := rfl
@[simp] theorem hostReset_cmd (rest : List HostAction) (s : State) : (hostReset rest s).cmd = State.reset.cmd := rfl
@[simp] theorem hostReset_busy (rest : List HostAction) (s : State) : (hostReset rest s).busy = State.reset.busy := rfl
@[simp] theorem hostReset_done (rest : List HostAction) (s : State) : (hostReset rest s).done = State.reset.done := rfl
@[simp] theorem hostReset_err (rest : List HostAction) (s : State) : (hostReset rest s).err = State.reset.err := rfl
@[simp] theorem hostReset_errcode (rest : List HostAction) (s : State) : (hostReset rest s).errcode = State.reset.errcode := rfl
@[simp] theorem hostReset_textlen (rest : List HostAction) (s : State) : (hostReset rest s).textlen = State.reset.textlen := rfl
@[simp] theorem hostReset_nseg (rest : List HostAction) (s : State) : (hostReset rest s).nseg = State.reset.nseg := rfl
@[simp] theorem hostReset_result (rest : List HostAction) (s : State) : (hostReset rest s).result = State.reset.result := rfl
@[simp] theorem hostReset_text (rest : List HostAction) (s : State) : (hostReset rest s).text = State.reset.text := rfl
@[simp] theorem hostReset_segtab (rest : List HostAction) (s : State) : (hostReset rest s).segtab = State.reset.segtab := rfl
@[simp] theorem hostReset_segdata (rest : List HostAction) (s : State) : (hostReset rest s).segdata = State.reset.segdata := rfl
@[simp] theorem hostReset_sym (rest : List HostAction) (s : State) : (hostReset rest s).sym = State.reset.sym := rfl
@[simp] theorem hostReset_stage (rest : List HostAction) (s : State) : (hostReset rest s).stage = State.reset.stage := rfl
@[simp] theorem hostReset_work (rest : List HostAction) (s : State) : (hostReset rest s).work = State.reset.work := rfl
@[simp] theorem hostReset_pending (rest : List HostAction) (s : State) : (hostReset rest s).pending = rest := rfl
@[simp] theorem hostReset_readData (rest : List HostAction) (s : State) : (hostReset rest s).readData = State.reset.readData := rfl
@[simp] theorem hostReset_epoch (rest : List HostAction) (s : State) : (hostReset rest s).epoch = s.epoch + 1 := rfl

end Sys2Proof.Machine
end

