-- ==== Sys2Proof/Laws/Ops.lean ====
section
/-! SUPPORT. What each shared operation can do: one lemma for each, cited in place of unfolding it. -/

namespace Sys2Proof.Machine

@[simp] theorem andThen_next_busy {s : State} (f : State → Out) (h : s.busy = true) : andThen (.next s) f = f s := by
  simp [andThen, h]

@[simp] theorem andThen_next_idle {s : State} (f : State → Out) (h : s.busy = false) :
    andThen (.next s) f = .next s := by
  simp [andThen, h]

@[simp] theorem andThen_refused (r : Refusal) (f : State → Out) : andThen (.refused r) f = .refused r := rfl

@[simp] theorem andThen_fault (r : Fault) (f : State → Out) : andThen (.fault r) f = .fault r := rfl

/-- A continued command answers what its last stage answers, or what an earlier one raised. -/
theorem andThen_next_cases {o : Out} {f : State → Out} {t : State} (h : andThen o f = .next t) :
    ∃ s, o = .next s ∧ ((s.busy = true ∧ f s = .next t) ∨ (s.busy = false ∧ t = s)) := by
  cases o with
  | next s =>
    refine ⟨s, rfl, ?_⟩
    cases hb : s.busy <;> simp [andThen, hb] at h
    · exact .inr ⟨rfl, h.symm⟩
    · exact .inl ⟨rfl, h⟩
  | fault r => simp [andThen] at h
  | refused r => simp [andThen] at h

/-- A finished command has completed, or has raised before. -/
theorem finish_next_cases {o : Out} {t : State} (h : finish o = .next t) :
    ∃ s, o = .next s ∧ ((s.busy = true ∧ t = complete s) ∨ (s.busy = false ∧ t = s)) := by
  obtain ⟨s, hs, h | h⟩ := andThen_next_cases h
  · exact ⟨s, hs, .inl ⟨h.1, by simpa using h.2.symm⟩⟩
  · exact ⟨s, hs, .inr h⟩

/-- `S1` answers the segments of the text, one of its two errors, or a refusal. -/
theorem execS1Segb_cases {s : State} {o : Out} (h : execS1Segb s = o) :
    o = .next (raise .lenRange s) ∨ (∃ i, o = .refused (.unwrittenElement .text i))
      ∨ o = .next (raise .loneSurrogate s)
      ∨ ∃ units segs, s.text.readRun 0 s.textlen.toNat = .ok units ∧ textSegments s.cfg.loneSurrogate units = some segs
          ∧ o = .next (setStage .s2 (setWork { s.work with segs := segs } s)) := by
  unfold execS1Segb at h
  split at h
  · exact .inl h.symm
  · split at h
    · exact .inr (.inl ⟨_, h.symm⟩)
    · rename_i units hu
      split at h
      · exact .inr (.inr (.inl h.symm))
      · rename_i segs hs
        exact .inr (.inr (.inr ⟨units, segs, hu, hs, h.symm⟩))

/-- `S2` answers a version that fits, or its error. -/
theorem execS2Vsel_cases (s : State) :
    (firstFit s.work.segs s.work.reqEcl s.work.minv s.work.maxv = none ∧ execS2Vsel s = .next (raise .noVersionFits s))
      ∨ ∃ v t, firstFit s.work.segs s.work.reqEcl s.work.minv s.work.maxv = some (v, t)
          ∧ execS2Vsel s
            = .next (setStage .s3 (setWork { s.work with ver := v, used := t, ecl := s.work.reqEcl } s)) := by
  unfold execS2Vsel
  split
  · rename_i h; exact .inl ⟨h, rfl⟩
  · rename_i v t h; exact .inr ⟨v, t, h, rfl⟩

/-- `S4` answers the padded codewords, or one of its two errors. -/
theorem execS4Asm_cases (s : State) :
    execS4Asm s = .next (raise .bitWidth s) ∨ execS4Asm s = .next (raise .payloadExceeds s)
      ∨ ∃ bb, appendSegments s.work.ver [] s.work.segs = some bb
          ∧ bb.length ≤ dataCapacityBits s.work.ver s.work.ecl
          ∧ execS4Asm s = .next (setStage .s5 (setWork { s.work with
              bb := padStream (dataCapacityBits s.work.ver s.work.ecl) bb
              dcw := pack8 (padStream (dataCapacityBits s.work.ver s.work.ecl) bb)
                ((padStream (dataCapacityBits s.work.ver s.work.ecl) bb).length / 8) } s)) := by
  unfold execS4Asm
  split
  · exact .inl rfl
  · rename_i bb hbb
    dsimp only
    split
    · exact .inr (.inl rfl)
    · rename_i hc
      exact .inr (.inr ⟨bb, hbb, by omega, rfl⟩)

/-- ENCSEG's segment list: one of its errors, a refusal, or the segments handed on. -/
theorem loadSegments_cases (s : State) (k : List Segment → Out) :
    loadSegments s k = .next (raise .lenRange s) ∨ (∃ sp i, loadSegments s k = .refused (.unwrittenElement sp i))
      ∨ ∃ tab bytes, s.segtab.readRun 0 s.nseg.toNat = .ok tab
          ∧ s.segdata.readRun 0 ((totalBitLen tab + 7) / 8) = .ok bytes
          ∧ loadSegments s k = k (cutSegments tab (bytesBits bytes)) := by
  unfold loadSegments
  split
  · exact .inl rfl
  · split
    · exact .inr (.inl ⟨_, _, rfl⟩)
    · rename_i tab ht
      split
      · exact .inl rfl
      · split
        · exact .inr (.inl ⟨_, _, rfl⟩)
        · rename_i bytes hb
          exact .inr (.inr ⟨tab, bytes, ht, hb, rfl⟩)

/-- The read of a module: the module, or its error. -/
theorem getModule_cases (px py : Int) (s : State) :
    (CoordsInGrid s.sym px py ∧ getModule px py s
        = .next (setStage .s0 (setResult (s.sym.modules.get px.toNat py.toNat) s)))
      ∨ (¬CoordsInGrid s.sym px py ∧ getModule px py s = .next (raise .coordRange s)) := by
  unfold getModule
  split
  · rename_i h; exact .inl ⟨h, rfl⟩
  · rename_i h; exact .inr ⟨h, rfl⟩

/-- An element access goes on where the elements exist, and stops where one does not. -/
theorem elementAccess_cases (sp : Space) (a n : Nat) (s t : State) :
    (a + n ≤ s.cfg.elements sp ∧ elementAccess sp a n s t = .next t)
      ∨ (s.cfg.elements sp < a + n ∧ elementAccess sp a n s t = .fault (.noSuchElement sp a n)) := by
  unfold elementAccess
  split
  · rename_i h; exact .inl ⟨h, rfl⟩
  · rename_i h; exact .inr ⟨by omega, rfl⟩

/-- Everything one step can be: a reset, the rest of a command, an idle wait, or one access of the host. -/
theorem step_cases (s : State) :
    (s.busy = true ∧ resetPending s = false ∧ step s = advance s)
      ∨ (s.pending = [] ∧ s.busy = false ∧ step s = .next s)
      ∨ ∃ act rest, s.pending = act :: rest ∧ (s.busy = false ∨ act = .reset)
          ∧ step s = hostStep act { s with pending := rest } := by
  unfold step
  cases hb : s.busy
  · cases hp : s.pending with
    | nil => exact .inr (.inl ⟨rfl, rfl, by simp [nextAccess, hp]⟩)
    | cons act rest => exact .inr (.inr ⟨act, rest, rfl, .inl rfl, by simp [nextAccess, hp, hb]⟩)
  · cases hr : resetPending s
    · exact .inl ⟨rfl, rfl, by simp⟩
    · cases hp : s.pending with
      | nil => simp [resetPending, hp] at hr
      | cons act rest =>
        refine .inr (.inr ⟨act, rest, rfl, .inr ?_, by simp [nextAccess, hp, hb]⟩)
        cases act <;> simp [resetPending, hp] at hr ⊢

end Sys2Proof.Machine
end

