-- ==== Sys2Proof/Laws/PerInstr.lean ====
section
/-! SUPPORT. One law for each instruction: its encoding matches its row of spec/opcode_table.json. -/

namespace Sys2Proof.Laws.TableRow

/-- A command word matches a row's `match` under its `mask`. -/
def Matches (c : Code) (mask value : BitVec 32) : Prop := ∃ w, c = .command w ∧ w &&& mask = value

/-- The encoding of an instruction matches its table row: `match` under `mask` for a command, `encoding` for a stage, a
mask index or a level. -/
def Statement (i : Instr) : Prop :=
  match i with
  | .enctxt _ => Matches (encode i) 0xFFFFFFFC 0x10000000
  | .encseg _ _ _ _ _ => Matches (encode i) 0xFFF80000 0x20000000
  | .getmod _ _ => Matches (encode i) 0xFF000000 0x30000000
  | .s1Segb => encode i = .stage 0b0001
  | .s2Vsel => encode i = .stage 0b0010
  | .s3Boost => encode i = .stage 0b0011
  | .s4Asm => encode i = .stage 0b0100
  | .s5Rsenc => encode i = .stage 0b0101
  | .s6Ilv => encode i = .stage 0b0110
  | .s7Fpat => encode i = .stage 0b0111
  | .s8Place => encode i = .stage 0b1000
  | .s9Msel => encode i = .stage 0b1001
  | .s10Final => encode i = .stage 0b1010
  | .s11Getm => encode i = .stage 0b1011
  | .mask0 => encode i = .maskIndex 0b000
  | .mask1 => encode i = .maskIndex 0b001
  | .mask2 => encode i = .maskIndex 0b010
  | .mask3 => encode i = .maskIndex 0b011
  | .mask4 => encode i = .maskIndex 0b100
  | .mask5 => encode i = .maskIndex 0b101
  | .mask6 => encode i = .maskIndex 0b110
  | .mask7 => encode i = .maskIndex 0b111
  | .eccLow => encode i = .level 0b00
  | .eccMedium => encode i = .level 0b01
  | .eccQuartile => encode i = .level 0b10
  | .eccHigh => encode i = .level 0b11

theorem enctxt (ecc : Level) : Statement (.enctxt ecc) :=
  ⟨_, rfl, by cases ecc <;> decide⟩

theorem encseg (ecc : Level) (minv maxv : Nat) (mask : Int) (boost : Bool) :
    Statement (.encseg ecc minv maxv mask boost) := by
  refine ⟨_, rfl, ?_⟩
  unfold encodeEncseg
  generalize BitVec.ofInt 4 mask = k, BitVec.ofNat 6 maxv = a, BitVec.ofNat 6 minv = b, ecc.ord = o
  apply BitVec.eq_of_getLsbD_eq
  intro i hi
  interval_cases i <;> cases boost <;> simp

theorem getmod (x y : Int) : Statement (.getmod x y) := by
  refine ⟨_, rfl, ?_⟩
  unfold encodeGetmod
  generalize BitVec.ofInt 12 x = a, BitVec.ofInt 12 y = b
  apply BitVec.eq_of_getLsbD_eq
  intro i hi
  interval_cases i <;> simp

theorem s1Segb : Statement .s1Segb := rfl
theorem s2Vsel : Statement .s2Vsel := rfl
theorem s3Boost : Statement .s3Boost := rfl
theorem s4Asm : Statement .s4Asm := rfl
theorem s5Rsenc : Statement .s5Rsenc := rfl
theorem s6Ilv : Statement .s6Ilv := rfl
theorem s7Fpat : Statement .s7Fpat := rfl
theorem s8Place : Statement .s8Place := rfl
theorem s9Msel : Statement .s9Msel := rfl
theorem s10Final : Statement .s10Final := rfl
theorem s11Getm : Statement .s11Getm := rfl
theorem mask0 : Statement .mask0 := rfl
theorem mask1 : Statement .mask1 := rfl
theorem mask2 : Statement .mask2 := rfl
theorem mask3 : Statement .mask3 := rfl
theorem mask4 : Statement .mask4 := rfl
theorem mask5 : Statement .mask5 := rfl
theorem mask6 : Statement .mask6 := rfl
theorem mask7 : Statement .mask7 := rfl
theorem eccLow : Statement .eccLow := rfl
theorem eccMedium : Statement .eccMedium := rfl
theorem eccQuartile : Statement .eccQuartile := rfl
theorem eccHigh : Statement .eccHigh := rfl

end Sys2Proof.Laws.TableRow
end

