-- ==== Sys2Proof/Tests/Slice0.lean ====
section
/-! SUPPORT. Tests of the model against the numbers the spec prints, and a witness for the hypotheses of each statement of
Certificates/Slice0/Obligations.lean. -/

namespace Sys2Proof.Tests

open Sys2Proof.Machine

/-! ### Well-formedness: each check refuses an ill-formed operand (spec/30_encoding.md R93, R94) -/

theorem test_wf_minv : (Instr.encseg .low 64 40 (-1) true).wf = false := by decide
theorem test_wf_maxv : (Instr.encseg .low 1 64 (-1) true).wf = false := by decide
theorem test_wf_mask_low : (Instr.encseg .low 1 40 (-9) true).wf = false := by decide
theorem test_wf_mask_high : (Instr.encseg .low 1 40 8 true).wf = false := by decide
theorem test_wf_x_low : (Instr.getmod (-2049) 0).wf = false := by decide
theorem test_wf_x_high : (Instr.getmod 2048 0).wf = false := by decide
theorem test_wf_y_low : (Instr.getmod 0 (-2049)).wf = false := by decide
theorem test_wf_y_high : (Instr.getmod 0 2048).wf = false := by decide
theorem test_wf_extremes : (Instr.encseg .high 63 0 (-8) false).wf = true ∧ (Instr.getmod (-2048) 2047).wf = true := by
  decide

/-! ### Decoding: words written out from the formats (R92, R93, R94, R97; spec/95_test_vectors.md V30) -/

theorem test_decode_enctxt :
    decodeTableWord 32 0b00010000000000000000000000000011 = some (.enctxt .high)
      ∧ decodeTableWord 32 0x10000000 = some (.enctxt .low) := by decide

/-- 0010 000000000 1 1111 101000 000001 11: OP, reserved, BOOST, MASK, MAXV, MINV, ECC. -/
theorem test_decode_encseg :
    decodeTableWord 32 0b00100000000001111110100000000111 = some (Instr.encsegDefaults .high)
      ∧ decodeTableWord 32 0x2000C209 = some (.encseg .medium 2 2 3 false)
      ∧ decodeTableWord 32 0x20022905 = some (.encseg .medium 1 41 (-8) false) := by decide

/-- 0011 0000 000000000110 000000000000: OP, reserved, Y, X. -/
theorem test_decode_getmod :
    decodeTableWord 32 0b00110000000000000110000000000000 = some (.getmod 0 6)
      ∧ decodeTableWord 32 0x30000FFF = some (.getmod (-1) 0) := by decide

theorem test_decode_illegal_words :
    [0x00000000, 0x10000004, 0x20080000, 0x31000000, 0x40000000, 0xFFFFFFFF].map (decodeTableWord 32)
      = [none, none, none, none, none, none] := by decide

theorem test_decode_stages :
    [0b0000, 0b0001, 0b0010, 0b0011, 0b0100, 0b0101, 0b0110, 0b0111, 0b1000, 0b1001, 0b1010, 0b1011, 0b1100].map
        (decodeTableWord 4)
      = [none, some .s1Segb, some .s2Vsel, some .s3Boost, some .s4Asm, some .s5Rsenc, some .s6Ilv, some .s7Fpat,
          some .s8Place, some .s9Msel, some .s10Final, some .s11Getm, none] := by decide

theorem test_decode_mask_indices :
    [0b000, 0b001, 0b010, 0b011, 0b100, 0b101, 0b110, 0b111].map (decodeTableWord 3)
      = [some .mask0, some .mask1, some .mask2, some .mask3, some .mask4, some .mask5, some .mask6, some .mask7] := by
  decide

theorem test_decode_levels :
    [0b00, 0b01, 0b10, 0b11].map (decodeTableWord 2)
      = [some .eccLow, some .eccMedium, some .eccQuartile, some .eccHigh] := by decide

/-! ### Small states -/

/-- The state an outcome goes on with; the reset state where it stops. -/
def after : Out → State
  | .next s => s
  | .fault _ => State.reset
  | .refused _ => State.reset

/-- The outcome goes on. -/
def goesOn : Out → Bool
  | .next _ => true
  | .fault _ => false
  | .refused _ => false

/-- An outcome that goes on is its next state. -/
theorem goesOn_after {o : Out} (h : goesOn o = true) : o = .next (after o) := by
  cases o <;> first | rfl | simp [goesOn] at h

/-- The reset state with a text in TEXT. -/
def withText (units : List CodeUnit) : State :=
  { State.reset with text := (⟨[]⟩ : Buffer 16).writeRun 0 units, textlen := BitVec.ofNat 16 units.length }

/-- The reset state with segments in SEGTAB and SEGDATA. -/
def withSegments (tab : List Word) (bytes : List Byte) : State :=
  { State.reset with segtab := (⟨[]⟩ : Buffer 32).writeRun 0 tab, nseg := BitVec.ofNat 8 tab.length,
                     segdata := (⟨[]⟩ : Buffer 8).writeRun 0 bytes }

/-- A command in progress: the reset state, busy, with a given working state. -/
def during (w : Work) : State := { State.reset with busy := true, work := w }

/-- The reset state with host accesses to come. -/
def withPending (acts : List HostAction) : State := { State.reset with pending := acts }

/-- A grid of side n from its rows, the leftmost module the most significant bit. -/
def rowsOf (n : Nat) (rows : List Nat) : List (List Bool) := rows.map fun r => bitsMSB r n

/-- A list of n zero bytes, as a payload whose values do not matter. -/
def payload (n : Nat) : Segment := { numChars := n, bits := List.replicate (8 * n) false }

def helloText : State := withText [0x48, 0x45, 0x4C, 0x4C, 0x4F]

def helloData : List Byte := [0x40, 0x54, 0x84, 0x54, 0xC4, 0xC4, 0xF0, 0xEC, 0x11]

def helloEcc : List Byte :=
  [0x0B, 0xFF, 0x5F, 0x43, 0xCE, 0xEE, 0x38, 0x28, 0x78, 0xF1, 0x47, 0xF0, 0x6D, 0x24, 0x44, 0x9A, 0xB8]

/-- The grid of spec/95_test_vectors.md V49.1. -/
def helloGrid : Grid :=
  ⟨rowsOf 21
    [0b111111100100101111111, 0b100000101110001000001, 0b101110100101101011101, 0b101110100111001011101,
    0b101110100110101011101, 0b100000101110001000001, 0b111111101010101111111, 0b000000001110100000000,
    0b000011110100101100010, 0b101110011100011101111, 0b110011110110100110010, 0b011101001011101010000,
    0b111100111111000000110, 0b000000001110000001011, 0b111111101000111001010, 0b100000101111011100010,
    0b101110101001000110101, 0b101110100101001001011, 0b101110100101010111000, 0b100000100001011000000,
    0b111111100101100110101]⟩

/-- The Symbol of V49.1. -/
def helloSym : Sym := { valid := true, version := 1, ecl := .high, size := 21, mask := 4, modules := helloGrid }

/-- The state after V49.1's command, where a GETMOD starts. -/
def helloHeld : State := { State.reset with done := true, sym := helloSym }

/-- The four blocks of V44.3, version 5 QUARTILE; of their error-correction codewords the first two, then zeros. -/
def blocks5q : List Block :=
  [(1, 15, [0xF5, 0xDA]), (16, 15, [0x0F, 0x31]), (31, 16, [0x0F, 0xFC]), (47, 16, [0xA3, 0xFD])].map
    fun p : Nat × Nat × List Byte =>
      { data := (List.range' p.1 p.2.1).map (BitVec.ofNat 8), ecc := p.2.2 ++ List.replicate 16 0 }

/-! ### Registers and host accesses -/

/-- V49.1: STATUS 0x0000000A and SYMINFO 0x00154301. -/
theorem test_status_and_syminfo : readReg 1 helloHeld = 0x0000000A ∧ readReg 6 helloHeld = 0x00154301 := by decide

/-- R281, R282: the ERRCODE column. -/
theorem test_errcodes :
    [Cause.illegalCmd, .versionRange, .maskRange, .coordRange, .bitWidth, .lenRange, .loneSurrogate, .noVersionFits,
      .payloadExceeds].map Cause.code = [0x11, 0x21, 0x31, 0x41, 0x51, 0x61, 0x71, 0x12, 0x22] := by decide

/-- R25: a write of TEXTLEN keeps bits 15:0. -/
theorem test_textlen_write : readReg 3 (after (step (withPending [.writeReg 3 0xABCD1234]))) = 0x1234 := by decide

/-- R62: a written element is read back. -/
theorem test_text_read_back :
    (after (step { helloText with pending := [.readElements .text 1 2] })).readData = [0x45, 0x4C] := by decide

/-- R61: element 4096 of TEXT does not exist. -/
theorem test_text_end : step (withPending [.writeText 4095 [1, 2]]) = .fault (.noSuchElement .text 4095 2) := rfl

/-- R264: CMD <- 0 after reset gives STATUS 0x6 and ERRCODE 0x11. -/
theorem test_illegal_word :
    (let t := after (step (withPending [.writeReg 0 0])); (readReg 1 t, readReg 2 t)) = (0x00000006, 0x00000011) := by
  decide

/-- The fetch convention: a placed command word is what the next step runs. -/
theorem test_fetched_command :
    readReg 2 (after (step (State.reset.withFetchWord 32 0x30000000))) = 0x41
      ∧ goesOn (step (State.reset.withFetchWord 32 0x10000003)) = true := by decide

/-! ### S1 SEGB (V41) -/

theorem test_s1_hello :
    (after (exec .s1Segb helloText)).work.segs
      = [{ numChars := 5, bits := bitsMSB 0b0100100001000101010011000100110001001111 40 }] := by decide

theorem test_s1_classes :
    utf8Expand .fault [0xE9, 0x20AC, 0xD83D, 0xDE00] = some [0xC3, 0xA9, 0xE2, 0x82, 0xAC, 0xF0, 0x9F, 0x98, 0x80]
      ∧ utf8Expand .fault [0xD800, 0xD800, 0xDC00] = none
      ∧ utf8Expand .threeByte [0xD800, 0xD800, 0xDC00] = some [0xED, 0xA0, 0x80, 0xF0, 0x90, 0x80, 0x80] := by decide

/-! ### S2 VSEL, S3 BOOST (V42) -/

/-- A segment of 8 bytes at HIGH: version 2, USED 76. -/
theorem test_s2_next_version :
    (let t := after (exec .s2Vsel (during { Work.reset with segs := [payload 8], reqEcl := .high }));
     (t.work.ver, t.work.used, t.work.ecl)) = (2, 76, .high) := by decide

/-- NUMCHARS 256 does not fit an 8-bit count: version 10, USED 20. -/
theorem test_s2_count_field :
    (let t := after (exec .s2Vsel (during { Work.reset with segs := [{ numChars := 256, bits := [] }] }));
     (t.work.ver, t.work.used)) = (10, 20) := by decide

/-- USED 156 at version 2: QUARTILE (176) and not HIGH (128). -/
theorem test_s3_boost :
    (after (exec .s3Boost (during { Work.reset with ver := 2, used := 156 }))).work.ecl = .quartile := by decide

theorem test_s3_off :
    (after (exec .s3Boost (during { Work.reset with used := 52, boosten := false }))).work.ecl = .low := by decide

/-! ### S4 ASM (V43) -/

theorem test_s4_hello :
    (after (exec .s4Asm (during { Work.reset with
        segs := [makeByteSegment [0x48, 0x45, 0x4C, 0x4C, 0x4F]], ecl := .high }))).work.dcw = helloData := by decide

/-- Segments of 4 and 8 bits cut from SEGDATA = A5 F0, at 1-HIGH. -/
theorem test_s4_split_byte :
    (after (exec .s4Asm (during { Work.reset with
        segs := cutSegments [0x00040000, 0x00080001] (bytesBits [0xA5, 0xF0]), ecl := .high }))).work.dcw
      = [0x40, 0x0A, 0x40, 0x15, 0xF0, 0xEC, 0x11, 0xEC, 0x11] := by decide

/-! ### S5 RSENC, S6 ILV (V44) -/

theorem test_gf_mul :
    [gfMul 0x02 0x80, gfMul 0x02 0x8E, gfMul 0x80 0x80, gfMul 0x53 0xCA, gfMul 0xB6 0x53, gfMul 0xFF 0xFF]
      = [0x1D, 0x01, 0x13, 0x8F, 0xEE, 0xE2] := by decide

theorem test_rs_divisor : rsDivisor 7 = [0x7F, 0x7A, 0x9A, 0xA4, 0x0B, 0x44, 0x75] := by decide +kernel

theorem test_s5_hello :
    (after (exec .s5Rsenc (during { Work.reset with ecl := .high, dcw := helloData }))).work.blk
      = [{ data := helloData, ecc := helloEcc }] := by decide +kernel

/-- V44.3: the last data round at version 5 QUARTILE holds the long blocks' sixteenth codewords, then the ECC part
starts. -/
theorem test_s6_short_and_long :
    ((after (exec .s6Ilv (during { Work.reset with ver := 5, ecl := .quartile, blk := blocks5q }))).work.acw.drop 56).take 12
      = [0x0F, 0x1E, 0x2D, 0x3D, 0x2E, 0x3E, 0xF5, 0x0F, 0x0F, 0xA3, 0xDA, 0x31] := by decide +kernel

/-! ### S7 FPAT (R200's figure), S8 PLACE (V46, R211) -/

/-- Version 1 after S7: the dark cells. -/
theorem test_s7_colours :
    (after (exec .s7Fpat (during Work.reset))).work.m.rows = rowsOf 21
    [0b111111100000001111111, 0b100000100000001000001, 0b101110100000001011101, 0b101110100000001011101,
    0b101110100000001011101, 0b100000100000001000001, 0b111111101010101111111, 0b000000000000000000000,
    0b000000100000000000000, 0b000000000000000000000, 0b000000100000000000000, 0b000000000000000000000,
    0b000000100000000000000, 0b000000001000000000000, 0b111111100000000000000, 0b100000100000000000000,
    0b101110100000000000000, 0b101110100000000000000, 0b101110100000000000000, 0b100000100000000000000,
    0b111111100000000000000] := by
  decide +kernel

/-- Version 1 after S7: the function modules, 233 of them. -/
theorem test_s7_functions :
    (after (exec .s7Fpat (during Work.reset))).work.f.rows = rowsOf 21
    [0b111111111000011111111, 0b111111111000011111111, 0b111111111000011111111, 0b111111111000011111111,
    0b111111111000011111111, 0b111111111000011111111, 0b111111111111111111111, 0b111111111000011111111,
    0b111111111000011111111, 0b000000100000000000000, 0b000000100000000000000, 0b000000100000000000000,
    0b000000100000000000000, 0b111111111000000000000, 0b111111111000000000000, 0b111111111000000000000,
    0b111111111000000000000, 0b111111111000000000000, 0b111111111000000000000, 0b111111111000000000000,
    0b111111111000000000000] := by
  decide +kernel

theorem test_align_positions :
    (alignPos 7, alignPos 32, alignPos 36) = ([6, 22, 38], [6, 34, 60, 86, 112, 138], [6, 24, 50, 76, 102, 128, 154]) := by
  decide

/-- V46, version 1: 208 cells, the first ten, cells 24 to 27, the last two. -/
theorem test_s8_path :
    (let p := zigzag 21 (functionPatterns 1).f
     (p.length, p.take 10, (p.drop 24).take 4, p.drop 206)
      = (208, [(20, 20), (19, 20), (20, 19), (19, 19), (20, 18), (19, 18), (20, 17), (19, 17), (20, 16), (19, 16)],
          [(18, 9), (17, 9), (18, 10), (17, 10)], [(1, 12), (0, 12)])) := by decide +kernel

/-- R213's figure: codeword Z of version 1 (here 0xFF among zeros) fills columns 0 and 1 of rows 9 to 12. -/
theorem test_s8_last_codeword :
    (let g := (after (exec .s8Place (during { Work.reset with
        acw := List.replicate 25 0x00 ++ [0xFF], m := Grid.blank 21, f := (functionPatterns 1).f }))).work.m
     (g.rows.drop 8).take 6 = rowsOf 21 [0, 0b11 <<< 19, 0b11 <<< 19, 0b11 <<< 19, 0b11 <<< 19, 0]) := by
  decide +kernel

/-! ### Masks (R220 to R227, the figures), penalty (V47), S9, S10 -/

/-- The modules that a mask inverts on a blank version-1 grid, columns 0 to 11 of rows 0 to 5. -/
def figure (i : Instr) : List (List Bool) :=
  ((after (exec i (during { Work.reset with m := Grid.blank 21, f := Grid.blank 21 }))).work.m.rows.take 6).map
    fun row => row.take 12

theorem test_mask0 :
    figure .mask0 = rowsOf 12
      [0b101010101010, 0b010101010101, 0b101010101010, 0b010101010101, 0b101010101010, 0b010101010101] := by
  decide +kernel

theorem test_mask1 :
    figure .mask1 = rowsOf 12
      [0b111111111111, 0b000000000000, 0b111111111111, 0b000000000000, 0b111111111111, 0b000000000000] := by
  decide +kernel

theorem test_mask2 :
    figure .mask2 = rowsOf 12
      [0b100100100100, 0b100100100100, 0b100100100100, 0b100100100100, 0b100100100100, 0b100100100100] := by
  decide +kernel

theorem test_mask3 :
    figure .mask3 = rowsOf 12
      [0b100100100100, 0b001001001001, 0b010010010010, 0b100100100100, 0b001001001001, 0b010010010010] := by
  decide +kernel

theorem test_mask4 :
    figure .mask4 = rowsOf 12
      [0b111000111000, 0b111000111000, 0b000111000111, 0b000111000111, 0b111000111000, 0b111000111000] := by
  decide +kernel

theorem test_mask5 :
    figure .mask5 = rowsOf 12
      [0b111111111111, 0b100000100000, 0b100100100100, 0b101010101010, 0b100100100100, 0b100000100000] := by
  decide +kernel

theorem test_mask6 :
    figure .mask6 = rowsOf 12
      [0b111111111111, 0b111000111000, 0b110110110110, 0b101010101010, 0b101101101101, 0b100011100011] := by
  decide +kernel

theorem test_mask7 :
    figure .mask7 = rowsOf 12
      [0b101010101010, 0b000111000111, 0b100011100011, 0b010101010101, 0b111000111000, 0b011100011100] := by
  decide +kernel

/-- A function module is not masked (R228). -/
theorem test_mask_skips_function_modules :
    (after (exec .mask0 (during { Work.reset with m := Grid.blank 21, f := Grid.build 21 fun _ _ => true }))).work.m
      = Grid.blank 21 := by decide +kernel

/-- The checkerboard of L1.9 with its run of five, and the same with a run of seven. -/
def runGrid (dark : List Nat) : Grid := Grid.build 21 fun x y => (x + y) % 2 == 0 || (y == 0 && dark.contains x)

/-- L1.9: a run of five scores 3 and nothing else does; a run of seven scores 5. -/
theorem test_penalty_runs :
    penalty Cfg.default 21 (runGrid [1, 3]) = 3 ∧ penaltyRuns 21 (runGrid [1, 3, 5]) = 5 := by decide +kernel

/-- V47.2: all light scores 798, 1200, 0, 100, and 90 under `CFG.N4_CEIL`. -/
theorem test_penalty_all_light :
    (penaltyRuns 21 (Grid.blank 21), penaltyBlocks 21 (Grid.blank 21), penaltyFinderLike true 21 (Grid.blank 21),
      penaltyBalance false 21 (Grid.blank 21), penaltyBalance true 21 (Grid.blank 21)) = (798, 1200, 0, 100, 90) := by
  decide +kernel

/-- V47.3, mask 4: 175, 126, 0 (40 under `CFG.N3_BOTH`), 0, on the grid of V49.1. -/
theorem test_penalty_hello :
    (penaltyRuns 21 helloGrid, penaltyBlocks 21 helloGrid, penaltyFinderLike false 21 helloGrid,
      penaltyFinderLike true 21 helloGrid, penaltyBalance false 21 helloGrid) = (175, 126, 0, 40, 0) := by decide +kernel

/-- V47.5: masks 2 and 3 tie at 330, and mask 2 is taken. -/
theorem test_s9_tie :
    ([438, 345, 330, 330, 442, 397, 338, 403].zipIdx.foldl (fun acc p => better acc p.2 p.1) none) = some (2, 330) := by
  decide

/-- R237: a forced mask is taken. -/
theorem test_s9_forced :
    (after (exec .s9Msel (during { Work.reset with fmask := 3 }))).work.bestMask = 3 := by decide

/-- R251, R253: the words that the rules work out step by step. -/
theorem test_format_and_version_word : formatWord .high 4 = 0x0762 ∧ versionWord 7 = 0x07C94 := by decide +kernel

/-- V49.1: the codewords of "HELLO" placed, masked with 4 and committed give the printed grid. -/
theorem test_s10_hello :
    (after (exec .s10Final (after (exec .s8Place (after (exec .s7Fpat (during { Work.reset with
        ecl := .high, bestMask := 4, acw := helloData ++ helloEcc }))))))).sym = helloSym := by decide +kernel

/-! ### Levels (R107) -/

theorem test_levels :
    [Instr.eccLow, .eccMedium, .eccQuartile, .eccHigh].map (fun i => (after (exec i State.reset)).work.reqEcl)
        = [.low, .medium, .quartile, .high]
      ∧ [Level.low, .medium, .quartile, .high].map (fun l => (l.ord.toNat, fmt l)) = [(0, 1), (1, 0), (2, 3), (3, 2)] := by
  decide

/-! ### Commands (V49, V60) -/

/-- V49.4: the empty text gives a Symbol and no error. -/
theorem test_enctxt_empty :
    (after (exec (.enctxt .low) State.reset)).sym.valid = true
      ∧ readReg 2 (after (exec (.enctxt .low) State.reset)) = 0 := by decide +kernel

/-- V60: an unpaired surrogate, and a length above the buffer. -/
theorem test_enctxt_errors :
    readReg 2 (after (exec (.enctxt .low) (withText [0xD800]))) = 0x71
      ∧ readReg 2 (after (exec (.enctxt .low) { State.reset with textlen := 5000 })) = 0x61 := by decide

/-- V49.2: two segments, forced version 2, mask 3, no boosting. -/
theorem test_encseg :
    (let t := after (exec (.encseg .medium 2 2 3 false)
        (withSegments [0x00100002, 0x00180003] [0x41, 0x42, 0x78, 0x79, 0x7A]))
     (readReg 1 t, readReg 6 t)) = (0x0000000A, 0x00193102) := by decide +kernel

/-- V60: the range errors, in their order. -/
theorem test_encseg_errors :
    [(0, 40, -8), (1, 41, -1), (1, 40, -8), (1, 40, -2), (5, 4, -1)].map (fun p : Nat × Nat × Int =>
        readReg 2 (after (exec (.encseg .low p.1 p.2.1 p.2.2 true) State.reset))) = [0x21, 0x21, 0x31, 0x31, 0x12]
      ∧ readReg 2 (after (exec (Instr.encsegDefaults .low) (withSegments [0xFFFF0000] []))) = 0x61 := by decide +kernel

/-- V49.5, by the command and by its stage. -/
theorem test_getmod :
    [(0, 0), (7, 0), (0, 6), (3, 3), (1, 1), (8, 13), (19, 20), (20, 19), (9, 6)].map (fun p : Int × Int =>
        (after (exec (.getmod p.1 p.2) helloHeld)).result)
      = [true, false, true, true, false, true, false, false, false] := by decide +kernel

theorem test_getmod_errors :
    [(21, 0), (0, 21), (-1, 0), (0, -1), (2047, 2047), (-2048, 0)].map (fun p : Int × Int =>
        readReg 2 (after (exec (.getmod p.1 p.2) helloHeld))) = [0x41, 0x41, 0x41, 0x41, 0x41, 0x41] := by decide +kernel

theorem test_s11 :
    (after (exec .s11Getm { helloHeld with busy := true, cmd := 0x30006000 })).result = true
      ∧ (after (exec .s11Getm { helloHeld with busy := true, cmd := 0x30000FFF })).errcode = 0x41 := by decide +kernel

/-! ### Witnesses: for each statement with hypotheses, a concrete state and operands that meet them together -/

/-- The reset state in the middle of a command. -/
def inStage (p : Stage) : State := { State.reset with busy := true, stage := p }

theorem witness_reset :
    ({ inStage .s5 with pending := [.reset, .readReg 1] } : State).pending = .reset :: [.readReg 1] := rfl

theorem witness_registerWrite :
    (∃ i v rest, (withPending [.writeReg 3 0xFFFFFFFF]).busy = false
        ∧ (withPending [.writeReg 3 0xFFFFFFFF]).pending = .writeReg i v :: rest ∧ i ≠ 0)
      ∧ ∃ i v rest, (withPending [.writeReg 7 1]).busy = false
        ∧ (withPending [.writeReg 7 1]).pending = .writeReg i v :: rest ∧ i ≠ 0 :=
  ⟨⟨3, 0xFFFFFFFF, [], rfl, rfl, by decide⟩, ⟨7, 1, [], rfl, rfl, by decide⟩⟩

/-- A held Symbol of version 40. -/
def bigSym : Sym := { valid := true, version := 40, ecl := .high, size := 177, mask := 7, modules := Grid.blank 177 }

theorem witness_syminfo :
    State.reset.sym.valid = false
      ∧ helloHeld.sym.valid = true ∧ helloHeld.sym.Wf
      ∧ ({ State.reset with sym := bigSym } : State).sym.valid = true
      ∧ ({ State.reset with sym := bigSym } : State).sym.Wf :=
  ⟨rfl, rfl, ⟨by decide, by decide, by decide, by decide +kernel⟩, rfl, ⟨by decide, by decide, by decide, blank_square 177⟩⟩

theorem witness_hostWrite :
    (∃ a vs rest, (withPending [.writeText 4095 [0xFFFF]]).busy = false
        ∧ (withPending [.writeText 4095 [0xFFFF]]).pending = .writeText a vs :: rest
        ∧ a + vs.length ≤ (withPending [.writeText 4095 [0xFFFF]]).cfg.textMax)
      ∧ (∃ a vs rest, (withPending [.writeSegtab 15 [7]]).busy = false
        ∧ (withPending [.writeSegtab 15 [7]]).pending = .writeSegtab a vs :: rest
        ∧ a + vs.length ≤ (withPending [.writeSegtab 15 [7]]).cfg.segMax)
      ∧ ∃ a vs rest, (withPending [.writeSegdata 4094 [1, 2]]).busy = false
        ∧ (withPending [.writeSegdata 4094 [1, 2]]).pending = .writeSegdata a vs :: rest
        ∧ a + vs.length ≤ (withPending [.writeSegdata 4094 [1, 2]]).cfg.segdataBytes :=
  ⟨⟨4095, [0xFFFF], [], rfl, rfl, by decide⟩, ⟨15, [7], [], rfl, rfl, by decide⟩, ⟨4094, [1, 2], [], rfl, rfl, by decide⟩⟩

theorem witness_hostRead :
    (∃ i rest, (withPending [.readReg 7]).busy = false ∧ (withPending [.readReg 7]).pending = .readReg i :: rest)
      ∧ (let s := { helloText with pending := [.readElements .text 4 1] }
         s.busy = false ∧ s.pending = .readElements .text 4 1 :: [] ∧ 4 + 1 ≤ s.cfg.elements .text
          ∧ s.text.read (4 + 0) = some 0x4F)
      ∧ (let s := { withSegments [7] [] with pending := [.readElements .segtab 0 16] }
         s.busy = false ∧ s.pending = .readElements .segtab 0 16 :: [] ∧ 0 + 16 ≤ s.cfg.elements .segtab
          ∧ s.segtab.read (0 + 0) = some 7)
      ∧ (let s := { withSegments [] [9] with pending := [.readElements .segdata 0 1] }
         s.busy = false ∧ s.pending = .readElements .segdata 0 1 :: [] ∧ 0 + 1 ≤ s.cfg.elements .segdata
          ∧ s.segdata.read (0 + 0) = some 9) :=
  ⟨⟨7, [], rfl, rfl⟩, ⟨rfl, rfl, by decide, by decide⟩, ⟨rfl, rfl, by decide, by decide⟩, ⟨rfl, rfl, by decide, by decide⟩⟩

theorem witness_encode :
    (Instr.encseg .high 63 0 (-8) false).wf = true ∧ (Instr.getmod 2047 (-2048)).wf = true ∧ Instr.mask7.wf = true := by
  decide

theorem witness_decode :
    decode (.command 0x2007FFFF) = .ok (.encseg .high 63 63 (-1) true)
      ∧ decode (.command 0x30FFFFFF) = .ok (.getmod (-1) (-1)) ∧ decode (.stage 11) = .ok .s11Getm := by decide

theorem witness_commandWrite :
    (withPending [.writeReg 0 0x10000003]).busy = false
      ∧ (withPending [.writeReg 0 0x10000003]).pending = .writeReg 0 0x10000003 :: []
      ∧ decode (.command 0x10000003) = .ok (.enctxt .high) := ⟨rfl, rfl, by decide⟩

theorem witness_stageStep :
    ((inStage .s11).busy = true ∧ (∀ rest, (inStage .s11).pending ≠ .reset :: rest)
        ∧ decode (.stage (inStage .s11).stage.code) = .ok .s11Getm)
      ∧ ((inStage .s0).busy = true ∧ (∀ rest, (inStage .s0).pending ≠ .reset :: rest) ∧ (inStage .s0).stage = .s0)
      ∧ State.reset.busy = false ∧ State.reset.pending = [] :=
  ⟨⟨rfl, by simp [inStage, State.reset], by decide⟩, ⟨rfl, by simp [inStage, State.reset], rfl⟩, rfl, rfl⟩

theorem witness_illegalWord :
    (withPending [.writeReg 0 0x10000004]).busy = false ∧ (withPending [.writeReg 0 0x10000004]).stage = .s0
      ∧ (withPending [.writeReg 0 0x10000004]).pending = .writeReg 0 0x10000004 :: []
      ∧ decode (.command 0x10000004) = .error .reservedBit := ⟨rfl, rfl, rfl, by decide⟩

/-- The classes of code units meet at 0x80, 0x800, the surrogates and 0xFFFF. -/
theorem witness_utf8 :
    (∀ c ∈ [(0x0000 : CodeUnit), 0x007F], c.toNat < 0x80)
      ∧ (∀ c ∈ [(0x0080 : CodeUnit), 0x07FF], 0x80 ≤ c.toNat ∧ c.toNat < 0x800)
      ∧ (∀ c ∈ [(0x0800 : CodeUnit), 0xD7FF, 0xE000, 0xFFFF],
          0x800 ≤ c.toNat ∧ ¬(0xD800 ≤ c.toNat ∧ c.toNat ≤ 0xDFFF)) := by
  simp

theorem witness_utf8Pairs :
    (0xD800 ≤ (0xD800 : CodeUnit).toNat ∧ (0xD800 : CodeUnit).toNat ≤ 0xDBFF ∧ 0xDC00 ≤ (0xDC00 : CodeUnit).toNat
        ∧ (0xDC00 : CodeUnit).toNat ≤ 0xDFFF
        ∧ 0x10000 = 0x10000 + ((0xD800 : CodeUnit).toNat - 0xD800) * 2 ^ 10 + ((0xDC00 : CodeUnit).toNat - 0xDC00))
      ∧ 0xD800 ≤ (0xDBFF : CodeUnit).toNat ∧ (0xDBFF : CodeUnit).toNat ≤ 0xDBFF ∧ 0xDC00 ≤ (0xDFFF : CodeUnit).toNat
        ∧ (0xDFFF : CodeUnit).toNat ≤ 0xDFFF
        ∧ 0x10FFFF = 0x10000 + ((0xDBFF : CodeUnit).toNat - 0xD800) * 2 ^ 10 + ((0xDFFF : CodeUnit).toNat - 0xDC00) := by
  simp

theorem witness_loneSurrogate :
    (0xD800 ≤ (0xDC00 : CodeUnit).toNat ∧ (0xDC00 : CodeUnit).toNat ≤ 0xDFFF ∧ ¬(0xDC00 : CodeUnit).toNat ≤ 0xDBFF)
      ∧ 0xD800 ≤ (0xDBFF : CodeUnit).toNat ∧ (0xDBFF : CodeUnit).toNat ≤ 0xDFFF
        ∧ ¬(0xDC00 ≤ (0xDBFF : CodeUnit).toNat ∧ (0xDBFF : CodeUnit).toNat ≤ 0xDFFF) := by
  simp

theorem witness_utf8Length :
    utf8Expand .fault [0xFFFF] = some [0xEF, 0xBF, 0xBF] ∧ utf8Expand .fault [] = some []
      ∧ utf8Expand .threeByte [0xDC00] = some [0xED, 0xB0, 0x80] := by decide

theorem helloText_holds : helloText.text.Holds 0 [0x48, 0x45, 0x4C, 0x4C, 0x4F] := by
  unfold Buffer.Holds; decide

theorem witness_segb :
    helloText.textlen.toNat = [(0x48 : CodeUnit), 0x45, 0x4C, 0x4C, 0x4F].length ∧ 5 ≤ helloText.cfg.textMax
      ∧ helloText.text.Holds 0 [0x48, 0x45, 0x4C, 0x4C, 0x4F]
      ∧ utf8Expand helloText.cfg.loneSurrogate [0x48, 0x45, 0x4C, 0x4C, 0x4F] = some [0x48, 0x45, 0x4C, 0x4C, 0x4F] :=
  ⟨by decide, by decide, helloText_holds, by decide⟩

/-- A text of one unpaired surrogate. -/
def loneText : State := withText [0xDC00]

theorem loneText_holds : loneText.text.Holds 0 [0xDC00] := by unfold Buffer.Holds; decide

/-- A segment of 18 bytes, one too many for version 1 at LOW, and a count one too large for its field. -/
theorem witness_segbAsmErrors :
    ({ State.reset with textlen := 4097 } : State).cfg.textMax < ({ State.reset with textlen := 4097 } : State).textlen.toNat
      ∧ (loneText.textlen.toNat = [(0xDC00 : CodeUnit)].length ∧ 1 ≤ loneText.cfg.textMax
        ∧ loneText.text.Holds 0 [0xDC00] ∧ utf8Expand loneText.cfg.loneSurrogate [0xDC00] = none)
      ∧ ¬CountsFit 9 [{ numChars := 256, bits := [] }]
      ∧ CountsFit 1 [payload 18] ∧ dataCapacityBits 1 .low < (dataStream 1 [payload 18]).length := by
  refine ⟨by decide, ⟨by decide, by decide, loneText_holds, by decide⟩, ?_, ?_, by decide +kernel⟩
  · unfold CountsFit; decide
  · unfold CountsFit; decide

theorem witness_unwritten :
    (let s := { helloText with textlen := 6 }
     s.textlen.toNat ≤ s.cfg.textMax ∧ 5 < s.textlen.toNat ∧ s.text.read 5 = none
      ∧ ∀ j, j < 5 → ∃ v, s.text.read j = some v) := by
  refine ⟨by decide, by decide, by decide, fun j hj => ?_⟩
  have : j = 0 ∨ j = 1 ∨ j = 2 ∨ j = 3 ∨ j = 4 := by omega
  rcases this with rfl | rfl | rfl | rfl | rfl <;> exact ⟨_, rfl⟩

/-- ENCSEG with its second SEGTAB element unwritten, and with the last SEGDATA byte it reads unwritten. -/
theorem witness_unwrittenSegments :
    VersionsInRange 1 40 ∧ MaskInRange (-1)
      ∧ (let s := { withSegments [0x00080001] [] with nseg := 2 }
         s.nseg.toNat ≤ s.cfg.segMax ∧ 1 < s.nseg.toNat ∧ s.segtab.read 1 = none
          ∧ ∀ j, j < 1 → ∃ v, s.segtab.read j = some v)
      ∧ (let s := withSegments [0x00090001] [0x41]
         let tab : List Word := [0x00090001]
         s.nseg.toNat ≤ s.cfg.segMax ∧ s.nseg.toNat = tab.length ∧ s.segtab.Holds 0 tab
          ∧ (tab.map fun e => e.toNat / 2 ^ 16).sum ≤ 8 * s.cfg.segdataBytes
          ∧ 1 < ((tab.map fun e => e.toNat / 2 ^ 16).sum + 7) / 8 ∧ s.segdata.read 1 = none
          ∧ ∀ j, j < 1 → ∃ v, s.segdata.read j = some v) := by
  refine ⟨by decide, by decide, ⟨by decide, by decide, by decide, fun j hj => ?_⟩,
    by decide, by decide, ?_, by decide, by decide, by decide, fun j hj => ?_⟩
  · obtain rfl : j = 0 := by omega
    exact ⟨_, rfl⟩
  · unfold Buffer.Holds; decide
  · obtain rfl : j = 0 := by omega
    exact ⟨_, rfl⟩

theorem witness_capacity : (1 ≤ 1 ∧ 1 ≤ 40) ∧ 1 ≤ 40 ∧ 40 ≤ 40 := by decide

theorem witness_counts :
    CountsFit 9 [{ numChars := 255, bits := [] }] ∧ ¬CountsFit 9 [{ numChars := 256, bits := [] }]
      ∧ CountsFit 10 [{ numChars := 65535, bits := [] }] := by unfold CountsFit; decide

/-- Eight bytes at HIGH miss version 1 and fit version 2; no version of an empty range fits. -/
theorem witness_vsel :
    (1 ≤ 2 ∧ 2 ≤ 40 ∧ Fits [payload 8] .high 2 ∧ ∀ u, 1 ≤ u → u < 2 → ¬Fits [payload 8] .high u)
      ∧ (∀ v, 5 ≤ v → v ≤ 4 → ¬Fits [payload 8] .high v) ∧ ∀ v, 1 ≤ v → v ≤ 1 → ¬Fits [payload 8] .high v := by
  have h1 : ¬Fits [payload 8] .high 1 := by unfold Fits CountsFit; decide
  refine ⟨⟨by decide, by decide, ?_, fun u h h' => ?_⟩, fun v h h' => by omega, fun v h h' => ?_⟩
  · unfold Fits CountsFit; decide
  · rw [show u = 1 by omega]; exact h1
  · rw [show v = 1 by omega]; exact h1

theorem witness_boost :
    ({ Work.reset with used := 152 } : Work).boosten = true ∧ 152 ≤ dataCapacityBits 1 .low
      ∧ ({ Work.reset with used := 129, boosten := false } : Work).boosten = false
      ∧ 10208 ≤ dataCapacityBits 40 .high ∧ ¬129 ≤ dataCapacityBits 1 .medium := by decide +kernel

/-- No segment at all, and seven bytes that leave 4 bits at 1-HIGH. -/
theorem witness_asm :
    (CountsFit 1 [] ∧ (dataStream 1 []).length ≤ dataCapacityBits 1 .high)
      ∧ CountsFit 1 [payload 7] ∧ (dataStream 1 [payload 7]).length ≤ dataCapacityBits 1 .high := by
  refine ⟨⟨?_, by decide⟩, ?_, by decide⟩
  · intro s hs; simp at hs
  · unfold CountsFit; decide

theorem witness_noZeroDivisor : gfMul 0 0x53 = 0 := by decide

theorem witness_remainder :
    rsDivisor 7 ≠ [] ∧ 7 ∈ [7, 10, 13, 15, 16, 17, 18, 20, 22, 24, 26, 28, 30] ∧ 6 < 7
      ∧ 30 ∈ [7, 10, 13, 15, 16, 17, 18, 20, 22, 24, 26, 28, 30] := by decide +kernel

theorem witness_rsenc :
    (1 ≤ 5 ∧ 5 ≤ 40 ∧ (List.replicate 62 (0x55 : Byte)).length = dataCodewords 5 .quartile)
      ∧ 1 ≤ 40 ∧ 40 ≤ 40 ∧ (List.replicate 2956 (0x55 : Byte)).length = dataCodewords 40 .low := by
  refine ⟨⟨by decide, by decide, ?_⟩, by decide, by decide, ?_⟩ <;> rw [List.length_replicate] <;> decide +kernel

/-- Block 2 of V44.3 is the first long one, block 1 the last short one. -/
theorem witness_ilv :
    1 ≤ 5 ∧ 5 ≤ 40 ∧ blocks5q.length = numBlocks .quartile 5
      ∧ (∀ j k, blocks5q[j]? = some k →
        (let b := numBlocks .quartile 5
         let e := eccPerBlock .quartile 5
         let r := rawCodewords 5
         k.data.length = r / b - e + (if j < b - r % b then 0 else 1) ∧ k.ecc.length = e))
      ∧ numBlocks .quartile 5 - rawCodewords 5 % numBlocks .quartile 5 = 2 ∧ 17 < eccPerBlock .quartile 5
      ∧ 14 < rawCodewords 5 / numBlocks .quartile 5 - eccPerBlock .quartile 5 := by
  refine ⟨by decide, by decide, by decide +kernel, fun j k h => ?_, by decide, by decide, by decide⟩
  have hj : j < blocks5q.length := (List.getElem?_eq_some_iff.mp h).1
  have hl : blocks5q.length = 4 := by decide +kernel
  have : ∀ j < 4, ∀ k ∈ blocks5q[j]?, k.data.length = rawCodewords 5 / numBlocks .quartile 5 - eccPerBlock .quartile 5
      + (if j < numBlocks .quartile 5 - rawCodewords 5 % numBlocks .quartile 5 then 0 else 1)
      ∧ k.ecc.length = eccPerBlock .quartile 5 := by
    decide +kernel
  exact this j (by omega) k h

theorem witness_fpat :
    (1 ≤ (during Work.reset).work.ver ∧ (during Work.reset).work.ver ≤ 40 ∧ 8 ≤ 12 ∧ 12 ≤ 21 - 9
        ∧ (8, 20) ∈ formatPath2 21 ∧ (8, 8) ∈ formatPath1)
      ∧ (7 ≤ (during { Work.reset with ver := 7 }).work.ver ∧ 17 < 18)
      ∧ 1 ≤ (during { Work.reset with ver := 40 }).work.ver ∧ (during { Work.reset with ver := 40 }).work.ver ≤ 40 :=
  ⟨⟨by decide, by decide, by decide, by decide, by decide, by decide⟩, by decide, by decide, by decide⟩

/-- The one pattern of version 2, at (18, 18), and one on the timing row of version 40. -/
theorem witness_alignment :
    (∃ t, exec .s7Fpat (during { Work.reset with ver := 2 }) = .next t ∧ 18 ∈ alignPos 2
        ∧ ¬((18 = 6 ∧ 18 = 6) ∨ (18 = 6 ∧ 18 = 4 * 2 + 10) ∨ (18 = 4 * 2 + 10 ∧ 18 = 6)))
      ∧ ∃ t, exec .s7Fpat (during { Work.reset with ver := 40 }) = .next t ∧ 30 ∈ alignPos 40 ∧ 6 ∈ alignPos 40
        ∧ ¬((30 = 6 ∧ 6 = 6) ∨ (30 = 6 ∧ 6 = 4 * 40 + 10) ∨ (30 = 4 * 40 + 10 ∧ 6 = 6)) :=
  ⟨⟨_, rfl, by decide, by decide⟩, ⟨_, rfl, by decide, by decide, by decide⟩⟩

/-- Blank grids of side n. -/
def blankCanvas (n : Nat) : Canvas := { size := n, m := Grid.blank n, f := Grid.blank n }

theorem witness_formatWord :
    21 ≤ (blankCanvas 21).size ∧ (blankCanvas 21).m.square (blankCanvas 21).size = true
      ∧ (blankCanvas 21).f.square (blankCanvas 21).size = true
      ∧ formatPath1[14]? = some (0, 8) ∧ (formatPath2 21)[14]? = some (8, 20) ∧ (formatPath2 21)[7]? = some (13, 8)
      ∧ ¬IsFormatCell 21 8 6 :=
  ⟨by decide, blank_square 21, blank_square 21, by decide, by decide, by decide, by unfold IsFormatCell; decide⟩

theorem witness_versionWord :
    6 < 7 ∧ 7 ≤ 7 ∧ (blankCanvas 45).size = 4 * 7 + 17 ∧ (blankCanvas 45).m.square (blankCanvas 45).size = true
      ∧ (blankCanvas 45).f.square (blankCanvas 45).size = true ∧ 17 < 18
      ∧ ¬(45 - 11 ≤ 37 ∧ 37 ≤ 45 - 9 ∧ 0 ≤ 5) ∧ ¬(45 - 11 ≤ 0 ∧ 0 ≤ 45 - 9 ∧ 37 ≤ 5) :=
  ⟨by decide, by decide, rfl, blank_square 45, blank_square 45, by decide, by decide, by decide⟩

/-- Version 1, and two cells of its path, (18, 9) before (17, 9), in the first downward pair. -/
theorem witness_zigzag : 1 ≤ 1 ∧ PathBefore (18, 9) (17, 9) ∧ PathBefore (17, 9) (18, 10) ∧ ¬PathBefore (19, 9) (20, 9) := by
  unfold PathBefore; decide

/-- A version-1 state at S8: one codeword placed, its first bit on the path's first cell, and a cell beyond. -/
theorem witness_place :
    (let w := { Work.reset with acw := [0x40], m := Grid.blank 21, f := Grid.blank 21 }
     1 ≤ w.ver ∧ w.m.square (4 * w.ver + 17) = true ∧ (zigzag (4 * w.ver + 17) w.f)[7]? = some (19, 17)
      ∧ w.acw[7 / 8]? = some 0x40 ∧ (20, 16) ∉ (zigzag (4 * w.ver + 17) w.f).take (8 * w.acw.length)) :=
  ⟨by decide, blank_square 21, by decide +kernel, by decide, by decide +kernel⟩

theorem witness_maskTwice :
    Instr.mask7 ∈ [Instr.mask0, .mask1, .mask2, .mask3, .mask4, .mask5, .mask6, .mask7]
      ∧ (during { Work.reset with m := Grid.blank 21, f := Grid.blank 21 }).work.m.square (4 * 1 + 17) = true :=
  ⟨by decide, blank_square 21⟩

theorem witness_eachMask (p : Nat → Nat → Bool) (rest : List (Instr × Nat × (Nat → Nat → Bool))) :
    (Instr.mask0, 0, p) ∈ (Instr.mask0, 0, p) :: rest ∧ 20 < 4 * State.reset.work.ver + 17 :=
  ⟨List.mem_cons_self, by decide⟩

theorem witness_runs :
    0 < 5 ∧ [false, true].head? ≠ some true ∧ ([] : List Bool).head? ≠ some true
      ∧ (Grid.blank 21).square 21 = true ∧ (Grid.blank 0).square 0 = true :=
  ⟨by decide, by decide, by decide, blank_square 21, blank_square 0⟩

/-- All light leaves d a multiple of the total; the checkerboard does not. -/
theorem witness_balance :
    21 % 2 = 1 ∧ (Grid.blank 21).square 21 = true ∧ helloGrid.square 21 = true
      ∧ (20 * (darkCount (Grid.blank 21) : Int) - 10 * ((21 * 21 : Nat) : Int)).natAbs % (21 * 21) = 0
      ∧ (20 * (darkCount helloGrid : Int) - 10 * ((21 * 21 : Nat) : Int)).natAbs % (21 * 21) ≠ 0 :=
  ⟨by decide, blank_square 21, by decide +kernel, by decide +kernel, by decide +kernel⟩

theorem witness_msel :
    (let w := { Work.reset with m := Grid.blank 21, f := Grid.blank 21 }
     w.fmask = -1 ∧ 1 ≤ w.ver ∧ w.GridsDrawn ∧ ¬IsFormatCell (4 * w.ver + 17) 8 6) :=
  ⟨rfl, by decide, ⟨blank_square 21, blank_square 21⟩, by unfold IsFormatCell; decide⟩

theorem witness_forced :
    7 ≤ 7 ∧ (during { Work.reset with fmask := 7 }).work.fmask = ((7 : Nat) : Int)
      ∧ (during { Work.reset with fmask := 0 }).work.fmask = ((0 : Nat) : Int) := by decide

theorem witness_final :
    1 ≤ (during Work.reset).work.ver ∧ 20 < 4 * 1 + 17 ∧ ¬IsFormatCell (4 * 1 + 17) 20 20
      ∧ formatPath1[0]? = some (8, 0) ∧ (formatPath2 (4 * 1 + 17))[8]? = some (8, 14) := by unfold IsFormatCell; decide

theorem witness_enctxt :
    helloText.textlen.toNat = [(0x48 : CodeUnit), 0x45, 0x4C, 0x4C, 0x4F].length ∧ 5 ≤ helloText.cfg.textMax
      ∧ helloText.text.Holds 0 [0x48, 0x45, 0x4C, 0x4C, 0x4F]
      ∧ utf8Expand helloText.cfg.loneSurrogate [0x48, 0x45, 0x4C, 0x4C, 0x4F] = some [0x48, 0x45, 0x4C, 0x4C, 0x4F]
      ∧ [(0x48 : Byte), 0x45, 0x4C, 0x4C, 0x4F].length ≤ maxTextBytes .high :=
  ⟨by decide, by decide, helloText_holds, by decide, by decide⟩

/-- A text of n equal one-byte units, written from index 0. -/
def longText (n : Nat) : State :=
  { State.reset with text := ⟨(List.range n).map fun i => (i, 0x61)⟩, textlen := BitVec.ofNat 16 n }

theorem lookupCell_range' (n a i : Nat) (v : CodeUnit) (h : a ≤ i ∧ i < a + n) :
    lookupCell i ((List.range' a n).map fun i => (i, v)) = some v := by
  induction n generalizing a with
  | zero => omega
  | succ n ih =>
    simp only [List.range'_succ, List.map_cons, lookupCell]
    split
    · rfl
    · exact ih (a + 1) (by omega)

theorem longText_holds (n : Nat) : (longText n).text.Holds 0 (List.replicate n 0x61) := by
  intro k hk
  have hk' : k < n := by simpa using hk
  have h : (longText n).text.read (0 + k) = some 0x61 := by
    rw [Nat.zero_add, longText, Buffer.read, List.range_eq_range']
    exact lookupCell_range' n 0 k 0x61 ⟨by omega, by omega⟩
  rw [h, List.getElem?_replicate, if_pos hk']

theorem longText_expands (ls : LoneSurrogate) (n : Nat) :
    utf8Expand ls (List.replicate n 0x61) = some (List.replicate n 0x61) := by
  induction n with
  | zero => rfl
  | succ n ih =>
    cases n with
    | zero => rfl
    | succ n =>
      rw [List.replicate_succ, List.replicate_succ, utf8Expand, ← List.replicate_succ, ih]
      rfl

/-- 1273 bytes are the most at HIGH, and 1274 are one too many (spec/42_version_selector.md R151). -/
theorem witness_enctxtErrors :
    ({ State.reset with textlen := 4097 } : State).cfg.textMax < ({ State.reset with textlen := 4097 } : State).textlen.toNat
      ∧ (loneText.textlen.toNat = [(0xDC00 : CodeUnit)].length ∧ loneText.text.Holds 0 [0xDC00]
        ∧ utf8Expand loneText.cfg.loneSurrogate [0xDC00] = none)
      ∧ (longText 1274).textlen.toNat = (List.replicate 1274 (0x61 : CodeUnit)).length
      ∧ (List.replicate 1274 (0x61 : CodeUnit)).length ≤ (longText 1274).cfg.textMax
      ∧ (longText 1274).text.Holds 0 (List.replicate 1274 0x61)
      ∧ utf8Expand (longText 1274).cfg.loneSurrogate (List.replicate 1274 0x61) = some (List.replicate 1274 0x61)
      ∧ maxTextBytes .high < (List.replicate 1274 (0x61 : Byte)).length := by
  refine ⟨by decide, ⟨by decide, loneText_holds, by decide⟩, ?_, ?_, longText_holds 1274, longText_expands _ 1274, ?_⟩
  · rw [List.length_replicate]; rfl
  · rw [List.length_replicate]; decide
  · rw [List.length_replicate]; decide

theorem witness_enctxtLongest :
    (longText 1273).textlen.toNat = (List.replicate 1273 (0x61 : CodeUnit)).length
      ∧ (longText 1273).text.Holds 0 (List.replicate 1273 0x61)
      ∧ (List.replicate 1273 (0x61 : Byte)).length ≤ maxTextBytes .high := by
  refine ⟨?_, longText_holds 1273, ?_⟩
  · rw [List.length_replicate]; rfl
  · rw [List.length_replicate]; decide

theorem witness_emptyText : State.reset.textlen = 0 := rfl

/-- A segment that starts in the middle of a SEGDATA byte (V43), and one with no bits. -/
theorem witness_cutSegments :
    (let tab : List Word := [0x00040000, 0x00080001, 0x00000000]
     let bytes : List Byte := [0xA5, 0xF0]
     totalBitLen tab ≤ 8 * bytes.length ∧ tab[1]? = some 0x00080001
      ∧ 4 = ((tab.take 1).map fun e => e.toNat / 2 ^ 16).sum
      ∧ ∃ g, (cutSegments tab (bytesBits bytes))[1]? = some g ∧ 7 < g.bits.length) :=
  ⟨by decide, by decide, by decide, _, rfl, by decide⟩

/-- V49.2's two segments, and the empty list at version 40. -/
theorem witness_encseg :
    (let s := withSegments [0x00100002, 0x00180003] [0x41, 0x42, 0x78, 0x79, 0x7A]
     let tab : List Word := [0x00100002, 0x00180003]
     let bytes : List Byte := [0x41, 0x42, 0x78, 0x79, 0x7A]
     VersionsInRange 2 2 ∧ MaskInRange 3 ∧ s.nseg.toNat = tab.length ∧ tab.length ≤ s.cfg.segMax ∧ s.segtab.Holds 0 tab
      ∧ totalBitLen tab ≤ 8 * s.cfg.segdataBytes ∧ bytes.length = (totalBitLen tab + 7) / 8 ∧ s.segdata.Holds 0 bytes
      ∧ ∃ v, 2 ≤ v ∧ v ≤ 2 ∧ Fits (cutSegments tab (bytesBits bytes)) .medium v)
    ∧ (VersionsInRange 40 40 ∧ MaskInRange (-1) ∧ State.reset.nseg.toNat = ([] : List Word).length
      ∧ State.reset.segtab.Holds 0 [] ∧ State.reset.segdata.Holds 0 []
      ∧ ∃ v, 40 ≤ v ∧ v ≤ 40 ∧ Fits (cutSegments [] (bytesBits [])) .high v) := by
  refine ⟨⟨by decide, by decide, by decide, by decide, ?_, by decide, by decide, ?_, 2, by decide, by decide, ?_⟩,
    by decide, by decide, rfl, fun k hk => by simp at hk, fun k hk => by simp at hk, 40, by decide, by decide, ?_⟩
  · unfold Buffer.Holds; decide
  · unfold Buffer.Holds; decide
  · unfold Fits CountsFit; decide +kernel
  · unfold Fits CountsFit; decide +kernel

/-- V60's states, one for each error; the last is an empty version range. -/
theorem witness_encsegErrors :
    ¬((1 ≤ 0 ∧ 0 ≤ 40) ∧ 1 ≤ 40 ∧ 40 ≤ 40) ∧ ((1 ≤ 1 ∧ 1 ≤ 40) ∧ 1 ≤ 40 ∧ 40 ≤ 40) ∧ ¬((-1 : Int) ≤ -2 ∧ (-2 : Int) ≤ 7)
      ∧ ((-1 : Int) ≤ -1 ∧ (-1 : Int) ≤ 7)
      ∧ ({ State.reset with nseg := 17 } : State).cfg.segMax < ({ State.reset with nseg := 17 } : State).nseg.toNat
      ∧ (let s := withSegments [0xFFFF0000] []
         s.nseg.toNat = [(0xFFFF0000 : Word)].length ∧ [(0xFFFF0000 : Word)].length ≤ s.cfg.segMax
          ∧ s.segtab.Holds 0 [0xFFFF0000] ∧ 8 * s.cfg.segdataBytes < totalBitLen [0xFFFF0000])
      ∧ ([] : List Byte).length = (totalBitLen [] + 7) / 8 ∧ State.reset.segdata.Holds 0 []
      ∧ ∀ v, 5 ≤ v → v ≤ 4 → ¬Fits (cutSegments [] (bytesBits [])) .low v := by
  refine ⟨by decide, by decide, by decide, by decide, by decide, ⟨by decide, by decide, ?_, by decide⟩, rfl,
    fun k hk => by simp at hk, fun v h h' => by omega⟩
  unfold Buffer.Holds; decide

/-- "HELLO" in TEXT, and its bytes as the one segment of SEGTAB (V49.1). -/
theorem witness_enctxtIsEncseg :
    (let s := { withSegments [0x00280005] [0x48, 0x45, 0x4C, 0x4C, 0x4F] with
        text := helloText.text, textlen := helloText.textlen }
     let bs : List Byte := [0x48, 0x45, 0x4C, 0x4C, 0x4F]
     s.cfg.Wf ∧ s.textlen.toNat = bs.length ∧ bs.length ≤ s.cfg.textMax
      ∧ s.text.Holds 0 [0x48, 0x45, 0x4C, 0x4C, 0x4F]
      ∧ utf8Expand s.cfg.loneSurrogate [0x48, 0x45, 0x4C, 0x4C, 0x4F] = some bs
      ∧ s.nseg = 1 ∧ s.segtab.read 0 = some 0x00280005 ∧ segNumChars 0x00280005 = bs.length
      ∧ segBitLen 0x00280005 = 8 * bs.length ∧ bs.length ≤ s.cfg.segdataBytes ∧ s.segdata.Holds 0 bs) := by
  refine ⟨by decide, by decide, by decide, helloText_holds, by decide, by decide, by decide, by decide, by decide,
    by decide, ?_⟩
  unfold Buffer.Holds; decide

theorem witness_getmod :
    (helloHeld.sym.valid = true ∧ ((0 : Int) ≤ 20 ∧ (20 : Int) < helloHeld.sym.size)
        ∧ (0 : Int) ≤ 0 ∧ (0 : Int) < helloHeld.sym.size)
      ∧ (let s := { helloHeld with cmd := 0x30014014 }
         s.sym.valid = true ∧ (0 ≤ coordX s.cmd ∧ coordX s.cmd < s.sym.size)
          ∧ 0 ≤ coordY s.cmd ∧ coordY s.cmd < s.sym.size) := by decide

theorem witness_getmodOutside :
    State.reset.sym.valid = false ∧ (-1 : Int) < 0 ∧ ((helloHeld.sym.size : Nat) : Int) ≤ 21
      ∧ (let s := { helloHeld with cmd := 0x30015000 }; ((s.sym.size : Nat) : Int) ≤ coordY s.cmd)
      ∧ (let s := { helloHeld with cmd := 0x30000FFF }; coordX s.cmd < 0) := by decide

theorem witness_levels :
    (Instr.eccHigh, Level.high, (3 : BitVec 2), 2) ∈ [(Instr.eccLow, Level.low, (0 : BitVec 2), 1),
      (.eccMedium, .medium, 1, 0), (.eccQuartile, .quartile, 2, 3), (.eccHigh, .high, 3, 2)] := by decide

theorem witness_stagesInOrder :
    VersionsInRange 1 40 ∧ MaskInRange 7
      ∧ (∀ k, loadSegments (startEncode (encodeEncseg .low 1 40 7 true) State.reset) k = k [])
      ∧ CoordOperandFits 2047 ∧ CoordOperandFits (-2048) :=
  ⟨by decide, by decide, fun _ => rfl, by decide, by decide⟩

/-- Commands that succeed and one that raises, each with its next state; and two states with one input. -/
theorem witness_encoding :
    (∃ t, exec (.enctxt .low) State.reset = .next t ∧ t.sym.valid = true)
      ∧ (∃ t, exec (.encseg .low 1 40 7 true) State.reset = .next t ∧ t.sym.valid = true)
      ∧ (∃ t, exec (.enctxt .low) loneText = .next t ∧ t.err = true)
      ∧ State.reset.cfg = helloHeld.cfg ∧ State.reset.textlen = helloHeld.textlen ∧ State.reset.text = helloHeld.text
      ∧ State.reset.nseg = helloHeld.nseg ∧ State.reset.segtab = helloHeld.segtab
      ∧ State.reset.segdata = helloHeld.segdata := by
  refine ⟨⟨after (exec (.enctxt .low) State.reset), ?_, by decide +kernel⟩,
    ⟨after (exec (.encseg .low 1 40 7 true) State.reset), ?_, by decide +kernel⟩,
    ⟨after (exec (.enctxt .low) loneText), ?_, by decide +kernel⟩,
    rfl, rfl, rfl, rfl, rfl, rfl⟩
  all_goals exact goesOn_after (by decide +kernel)

theorem witness_operations :
    (∃ t, exec .s9Msel (inStage .s9) = .next t) ∧ (∀ ecc, Instr.s9Msel ≠ .enctxt ecc)
      ∧ (∀ ecc minv maxv mask boost, Instr.s9Msel ≠ .encseg ecc minv maxv mask boost) ∧ Instr.s9Msel ≠ .s10Final
      ∧ (∀ x y, Instr.s9Msel ≠ .getmod x y) ∧ Instr.s9Msel ≠ .s11Getm :=
  ⟨⟨_, rfl⟩, by simp, by simp, by simp, by simp, by simp⟩

theorem witness_idle :
    (withPending [.writeReg 3 5]).busy = false ∧ (withPending [.writeReg 3 5]).stage = .s0
      ∧ ∃ t, step (withPending [.writeReg 3 5]) = .next t := ⟨rfl, rfl, _, rfl⟩

theorem witness_stops :
    step (withPending [.writeText 4096 [1]]) = .fault (.noSuchElement .text 4096 1)
      ∧ step { State.reset with textlen := 1, pending := [.writeReg 0 0x10000000] } = .refused (.unwrittenElement .text 0)
      ∧ step { State.reset with nseg := 1, pending := [.writeReg 0 0x2007E804] }
          = .refused (.unwrittenElement .segtab 0)
      ∧ step { withSegments [0x00080001] [] with pending := [.writeReg 0 0x2007E804] }
          = .refused (.unwrittenElement .segdata 0) := ⟨rfl, rfl, rfl, rfl⟩

/-- The reset state meets the invariant, and steps. -/
theorem witness_invariant : State.reset.Inv ∧ ∃ t, step State.reset = .next t := by
  refine ⟨⟨by decide, ⟨rfl, ?_⟩, ⟨rfl, ?_⟩, ⟨rfl, ?_⟩, ?_, ⟨by decide, by decide, by decide, by decide, by decide⟩, ?_, ?_, ?_⟩,
    _, rfl⟩
  · intro i v h; simp [State.reset, Buffer.read, lookupCell] at h
  · intro i v h; simp [State.reset, Buffer.read, lookupCell] at h
  · intro i v h; simp [State.reset, Buffer.read, lookupCell] at h
  · intro h; simp [State.reset, Sym.reset] at h
  · exact fun _ => ⟨rfl, .inl ⟨rfl, rfl⟩⟩
  · intro h; simp [State.reset] at h
  · intro h; simp [State.reset] at h

end Sys2Proof.Tests
end

section
/-! PROOFS. The host's registers (spec/10_state.md R21, R23, R25, R26, R28). -/

namespace Sys2Proof.Machine

/-! ### Register reads and writes -/

theorem setWidth_low16 (v : Word) : (v.setWidth 16).setWidth 32 = v &&& 0xFFFF := by
  apply BitVec.eq_of_toNat_eq
  simp [BitVec.toNat_setWidth, Nat.and_two_pow_sub_one_eq_mod v.toNat 16]
  omega

theorem setWidth_low8 (v : Word) : (v.setWidth 8).setWidth 32 = v &&& 0xFF := by
  apply BitVec.eq_of_toNat_eq
  simp [BitVec.toNat_setWidth, Nat.and_two_pow_sub_one_eq_mod v.toNat 8]
  omega

/-- The registers do not show the accesses still to come. -/
@[simp] theorem readReg_pending (j : Fin 8) (s : State) (rest : List HostAction) :
    readReg j { s with pending := rest } = readReg j s := by
  fin_cases j <;> rfl

/-- What a register reads after a host write of register i. -/
theorem readReg_writeReg (i j : Fin 8) (v : Word) (s : State) :
    readReg j (writeReg i v s)
      = if i = j ∧ j = 3 then v &&& 0xFFFF else if i = j ∧ j = 4 then v &&& 0xFF else readReg j s := by
  by_cases h3 : i = 3
  · subst h3
    fin_cases j <;> simp [readReg, writeReg, statusWord, setWidth_low16]
  · by_cases h4 : i = 4
    · subst h4
      fin_cases j <;> simp [readReg, writeReg, statusWord, setWidth_low8]
    · have hw : writeReg i v s = s := by fin_cases i <;> simp_all [writeReg]
      rw [hw, if_neg (by rintro ⟨rfl, rfl⟩; exact h3 rfl), if_neg (by rintro ⟨rfl, rfl⟩; exact h4 rfl)]

/-- A register write touches the two length registers only. -/
theorem writeReg_frame (i : Fin 8) (v : Word) (s : State) :
    writeReg i v s = { s with textlen := (writeReg i v s).textlen, nseg := (writeReg i v s).nseg } := by
  fin_cases i <;> rfl

/-! ### STATUS and SYMINFO as numbers -/

/-- Bit k of STATUS (R23). -/
theorem statusWord_bit (s : State) (k : Nat) :
    (statusWord s).getLsbD k
      = if k = 0 then s.busy else if k = 1 then s.done else if k = 2 then s.err else if k = 3 then s.sym.valid
        else false := by
  unfold statusWord
  generalize s.busy = a, s.done = b, s.err = c, s.sym.valid = d
  rcases Nat.lt_or_ge k 4 with h | h
  · interval_cases k <;> simp
  · have : k ≠ 0 ∧ k ≠ 1 ∧ k ≠ 2 ∧ k ≠ 3 := by omega
    simp [BitVec.getLsbD_setWidth, BitVec.getLsbD_shiftLeft, this]
    omega

/-- A field put above the bits of a smaller number adds to it. -/
theorem or_shiftLeft_eq_add {a n : Nat} (b : Nat) (h : a < 2 ^ n) : a ||| b <<< n = a + 2 ^ n * b := by
  rw [Nat.or_comm, ← Nat.shiftLeft_add_eq_or_of_lt h, Nat.shiftLeft_eq, Nat.mul_comm, Nat.add_comm]

/-- The fields of SYMINFO do not overlap: the word is their weighted sum (R28). -/
theorem syminfoWord_toNat {y : Sym} (hv : y.valid = true) (h1 : y.version < 2 ^ 6) (h2 : y.mask < 2 ^ 3)
    (h3 : y.size < 2 ^ 8) :
    (syminfoWord y).toNat = y.version + 2 ^ 8 * y.ecl.ord.toNat + 2 ^ 12 * y.mask + 2 ^ 16 * y.size := by
  have ho : y.ecl.ord.toNat < 2 ^ 2 := y.ecl.ord.isLt
  have hfields : (syminfoWord y).toNat
      = y.version ||| y.ecl.ord.toNat <<< 8 ||| y.mask <<< 12 ||| y.size <<< 16 := by
    simp only [syminfoWord, hv, if_true, BitVec.toNat_or, BitVec.toNat_shiftLeft, BitVec.toNat_setWidth,
      BitVec.toNat_ofNat]
    simp (disch := omega) only [Nat.mod_eq_of_lt, Nat.shiftLeft_eq]
  rw [hfields, or_shiftLeft_eq_add (a := y.version) _ (by omega)]
  rw [or_shiftLeft_eq_add (n := 12) _ (by omega), or_shiftLeft_eq_add (n := 16) _ (by omega)]

/-! ### The statements -/

/-- Settles O2, by what a register write shows in each register. -/
theorem hostRegisterWriteKeepsFieldBits : Obligations.HostRegisterWriteKeepsFieldBits := by
  intro s i v rest hb hp hi
  refine ⟨writeReg i v { s with pending := rest }, ?_, writeReg_frame i v _, fun j => ?_⟩
  · simp [step, hb, nextAccess, hp, hostStep, hi]
  · rw [readReg_writeReg, readReg_pending]

/-- Settles O3: STATUS bit by bit, SYMINFO as the sum of fields that do not overlap. -/
theorem statusAndSyminfoReadTheirFields : Obligations.StatusAndSyminfoReadTheirFields := by
  refine ⟨statusWord_bit, fun s hv => by simp [readReg, syminfoWord, hv], fun s hv hwf => ?_⟩
  obtain ⟨⟨-, hver⟩, hsize, hmask, -⟩ := hwf
  have : s.sym.size < 2 ^ 8 := by rw [hsize, sideOf]; omega
  exact syminfoWord_toNat hv (by omega) (by omega) this

end Sys2Proof.Machine
end

section
/-! PROOFS. What one stage can do, a command as the run of its stages, and what follows for STAGE, SYM and RESULT
(spec/10_state.md R27, R33, R40; spec/49_commands.md R260). -/

namespace Sys2Proof.Machine

/-! ### One stage -/

/-- What an operation can do whose outputs are all in the hidden working state, before the stage `p`: raise, or replace
the working state and go on to `p`. -/
inductive WorkStep (p : Stage) (s : State) : State → Prop
  | raised (c : Cause) : WorkStep p s (raise c s)
  | worked (w : Work) : WorkStep p s (setStage p (setWork w s))

theorem WorkStep.stage_of_busy {p : Stage} {s t : State} (h : WorkStep p s t) (hb : t.busy = true) : t.stage = p := by
  cases h with
  | raised c => simp at hb
  | worked w => rfl

theorem WorkStep.stage_of_idle {p : Stage} {s t : State} (h : WorkStep p s t) (hs : s.busy = true)
    (hb : t.busy = false) : t.stage = .s0 := by
  cases h with
  | raised c => rfl
  | worked w => simp [hs] at hb

theorem WorkStep.sym_eq {p : Stage} {s t : State} (h : WorkStep p s t) : t.sym = s.sym := by
  cases h <;> rfl

theorem WorkStep.result_eq {p : Stage} {s t : State} (h : WorkStep p s t) : t.result = s.result := by
  cases h <;> rfl

theorem execS1Segb_workStep {s t : State} (h : execS1Segb s = .next t) : WorkStep .s2 s t := by
  obtain h | ⟨i, h⟩ | h | ⟨_, segs, -, -, h⟩ := execS1Segb_cases h
  · cases h; exact .raised _
  · cases h
  · cases h; exact .raised _
  · cases h; exact .worked _

theorem execS2Vsel_workStep {s t : State} (h : execS2Vsel s = .next t) : WorkStep .s3 s t := by
  obtain ⟨-, h'⟩ | ⟨v, n, -, h'⟩ := execS2Vsel_cases s <;> rw [h'] at h <;> cases h
  · exact .raised _
  · exact .worked _

theorem execS3Boost_workStep {s t : State} (h : execS3Boost s = .next t) : WorkStep .s4 s t := by
  cases h; exact .worked _

theorem execS4Asm_workStep {s t : State} (h : execS4Asm s = .next t) : WorkStep .s5 s t := by
  obtain h' | h' | ⟨bb, -, -, h'⟩ := execS4Asm_cases s <;> rw [h'] at h <;> cases h
  · exact .raised _
  · exact .raised _
  · exact .worked _

theorem execS5Rsenc_workStep {s t : State} (h : execS5Rsenc s = .next t) : WorkStep .s6 s t := by
  cases h; exact .worked _

theorem execS6Ilv_workStep {s t : State} (h : execS6Ilv s = .next t) : WorkStep .s7 s t := by
  cases h; exact .worked _

theorem execS7Fpat_workStep {s t : State} (h : execS7Fpat s = .next t) : WorkStep .s8 s t := by
  cases h; exact .worked _

theorem execS8Place_workStep {s t : State} (h : execS8Place s = .next t) : WorkStep .s9 s t := by
  cases h; exact .worked _

/-- S9 searches where FMASK is -1, and takes FMASK where it is not. -/
theorem execS9Msel_cases (s : State) :
    (s.work.fmask = -1 ∧ execS9Msel s = .next (setStage .s10 (setWork (autoSelect s.cfg s.work) s)))
      ∨ (s.work.fmask ≠ -1
        ∧ execS9Msel s = .next (setStage .s10 (setWork { s.work with bestMask := s.work.fmask.toNat } s))) := by
  unfold execS9Msel
  split
  · exact .inl ⟨‹_›, rfl⟩
  · exact .inr ⟨‹_›, rfl⟩

theorem execS9Msel_workStep {s t : State} (h : execS9Msel s = .next t) : WorkStep .s10 s t := by
  obtain ⟨-, h'⟩ | ⟨-, h'⟩ := execS9Msel_cases s <;> rw [h'] at h <;> cases h <;> exact .worked _

/-- The state after S10: the Symbol committed, and M and F as they are in it (R241). -/
def finalState (s : State) : State :=
  setStage .s0 (commit (finalSym s.work) (setWork (withCanvas (finalCanvas s.work) s.work) s))

@[simp] theorem finalState_busy (s : State) : (finalState s).busy = s.busy := by simp [finalState]
@[simp] theorem finalState_stage (s : State) : (finalState s).stage = .s0 := by simp [finalState]
@[simp] theorem finalState_result (s : State) : (finalState s).result = s.result := by simp [finalState]

theorem execS10Final_eq (s : State) : execS10Final s = .next (finalState s) := rfl

/-- What S11 can do: put a module in RESULT, or raise. -/
theorem execS11Getm_cases {s t : State} (h : execS11Getm s = .next t) :
    (∃ b, t = setStage .s0 (setResult b s)) ∨ t = raise .coordRange s := by
  rw [execS11Getm] at h
  obtain ⟨-, h'⟩ | ⟨-, h'⟩ := getModule_cases (coordX s.cmd) (coordY s.cmd) s <;> rw [h'] at h <;> cases h
  · exact .inl ⟨_, rfl⟩
  · exact .inr rfl

/-- The operation of a stage of a command in progress: the completion of R260 in S0 (R40, R97). -/
def stageOp : Stage → State → Out
  | .s0 => fun s => .next (complete s)
  | .s1 => execS1Segb
  | .s2 => execS2Vsel
  | .s3 => execS3Boost
  | .s4 => execS4Asm
  | .s5 => execS5Rsenc
  | .s6 => execS6Ilv
  | .s7 => execS7Fpat
  | .s8 => execS8Place
  | .s9 => execS9Msel
  | .s10 => execS10Final
  | .s11 => execS11Getm

/-- A command in progress runs the operation that STAGE selects. -/
theorem advance_eq_stageOp (s : State) : advance s = stageOp s.stage s := by
  cases h : s.stage <;> simp [advance, h, Stage.code, decode, decodeStage, exec, stageOp]

/-- Everything one stage of a command in progress can do: complete the command, step from S1 to S9 in order, commit the
Symbol, read the module, or raise. -/
theorem advance_cases {s t : State} (h : advance s = .next t) :
    (s.stage = .s0 ∧ t = complete s)
      ∨ (∃ p, p ≠ .s11 ∧ WorkStep p s t)
      ∨ (s.stage = .s10 ∧ t = finalState s)
      ∨ (s.stage = .s11 ∧ ((∃ b, t = setStage .s0 (setResult b s)) ∨ t = raise .coordRange s)) := by
  rw [advance_eq_stageOp] at h
  cases hs : s.stage <;> rw [hs] at h
  case s0 => cases h; exact .inl ⟨rfl, rfl⟩
  case s1 => exact .inr (.inl ⟨_, by decide, execS1Segb_workStep h⟩)
  case s2 => exact .inr (.inl ⟨_, by decide, execS2Vsel_workStep h⟩)
  case s3 => exact .inr (.inl ⟨_, by decide, execS3Boost_workStep h⟩)
  case s4 => exact .inr (.inl ⟨_, by decide, execS4Asm_workStep h⟩)
  case s5 => exact .inr (.inl ⟨_, by decide, execS5Rsenc_workStep h⟩)
  case s6 => exact .inr (.inl ⟨_, by decide, execS6Ilv_workStep h⟩)
  case s7 => exact .inr (.inl ⟨_, by decide, execS7Fpat_workStep h⟩)
  case s8 => exact .inr (.inl ⟨_, by decide, execS8Place_workStep h⟩)
  case s9 => exact .inr (.inl ⟨_, by decide, execS9Msel_workStep h⟩)
  case s10 => rw [stageOp, execS10Final_eq] at h; cases h; exact .inr (.inr (.inl ⟨rfl, rfl⟩))
  case s11 => exact .inr (.inr (.inr ⟨rfl, execS11Getm_cases h⟩))

/-! ### Runs of stages -/

theorem andThen_assoc (o : Out) (f g : State → Out) :
    andThen (andThen o f) g = andThen o fun s => andThen (f s) g := by
  cases o with
  | next s => cases hb : s.busy <;> simp [andThen, hb]
  | fault r => rfl
  | refused r => rfl

theorem finish_andThen (o : Out) (f : State → Out) : finish (andThen o f) = andThen o fun s => finish (f s) :=
  andThen_assoc o f _

theorem finish_next_idle {s : State} (h : s.busy = false) : finish (.next s) = .next s := by
  simp [finish, h]

theorem finish_next_busy {s : State} (h : s.busy = true) : finish (.next s) = .next (complete s) := by
  simp [finish, h]

/-- A finished command has left BUSY. -/
theorem finish_idle {o : Out} {t : State} (h : finish o = .next t) : t.busy = false := by
  obtain ⟨s, -, ⟨-, rfl⟩ | ⟨hs, rfl⟩⟩ := finish_next_cases h
  · rfl
  · exact hs

theorem runStages_idle (n : Nat) {s : State} (h : s.busy = false) : runStages n s = .next s := by
  cases n <;> simp [runStages, h]

theorem runStages_succ (n : Nat) {s : State} (h : s.busy = true) :
    runStages (n + 1) s = andThen (advance s) (runStages n) := by
  simp only [runStages, h, if_true]
  cases advance s with
  | next t =>
    cases hb : t.busy
    · simp [hb, runStages_idle]
    · simp [hb]
  | fault r => rfl
  | refused r => rfl

/-- What every stage of a command keeps, the run of its stages keeps. -/
theorem runStages_keeps {P : State → Prop}
    (hP : ∀ s t, P s → s.busy = true → advance s = .next t → P t) (n : Nat) {s t : State} (hs : P s)
    (h : runStages n s = .next t) : P t := by
  induction n generalizing s with
  | zero => cases h; exact hs
  | succ n ih =>
    cases hb : s.busy
    · rw [runStages_idle _ hb] at h; cases h; exact hs
    · rw [runStages_succ n hb] at h
      obtain ⟨u, hu, ⟨-, h⟩ | ⟨-, rfl⟩⟩ := andThen_next_cases h
      · exact ih (hP s u hs hb hu) h
      · exact hP s _ hs hb hu

/-- A command is executing, and its next stage is `p`. -/
def AtStage (p : Stage) (s : State) : Prop := s.busy = true ∧ s.stage = p

/-- From S0 on, a command in progress completes. -/
theorem runStages_s0 (n : Nat) {s : State} (h : AtStage .s0 s) : runStages (n + 1) s = finish (.next s) := by
  rw [runStages_succ n h.1, advance_eq_stageOp, h.2, stageOp, andThen_next_idle _ rfl, finish_next_busy h.1]

theorem runStages_s10 (n : Nat) {s : State} (h : AtStage .s10 s) : runStages (n + 2) s = finish (execS10Final s) := by
  have hb : (finalState s).busy = true := (finalState_busy s).trans h.1
  rw [runStages_succ _ h.1, advance_eq_stageOp, h.2, stageOp, execS10Final_eq, andThen_next_busy _ hb,
    runStages_s0 n ⟨hb, finalState_stage s⟩]

theorem runStages_s11 (n : Nat) {s : State} (h : AtStage .s11 s) : runStages (n + 2) s = finish (execS11Getm s) := by
  rw [runStages_succ _ h.1, advance_eq_stageOp, h.2, stageOp, execS11Getm]
  obtain ⟨-, h'⟩ | ⟨-, h'⟩ := getModule_cases (coordX s.cmd) (coordY s.cmd) s <;> rw [h']
  · exact (andThen_next_busy _ (by exact h.1)).trans (runStages_s0 n ⟨h.1, rfl⟩)
  · rw [andThen_next_idle _ rfl, finish_next_idle rfl]

/-- A stage before a continuation `f` that the stages after it amount to. -/
theorem runStages_from {p q : Stage} {n : Nat} {f : State → Out}
    (hstep : ∀ s t, stageOp p s = .next t → WorkStep q s t) (hrest : ∀ t, AtStage q t → runStages n t = f t)
    (s : State) (h : AtStage p s) : runStages (n + 1) s = andThen (stageOp p s) f := by
  rw [runStages_succ n h.1, advance_eq_stageOp, h.2]
  cases ho : stageOp p s with
  | next t =>
    cases ht : t.busy
    · rw [andThen_next_idle _ ht, andThen_next_idle _ ht]
    · rw [andThen_next_busy _ ht, andThen_next_busy _ ht, hrest t ⟨ht, (hstep s t ho).stage_of_busy ht⟩]
  | fault r => rfl
  | refused r => rfl

/-- Stages S2 to S10 and the completion, as the run of the stages from S2. -/
theorem runStages_s2 (n : Nat) {s : State} (h : AtStage .s2 s) : runStages (n + 10) s = finish (runFromS2 s) := by
  have h9 := runStages_from (p := .s9) (fun _ _ => execS9Msel_workStep) fun _ => runStages_s10 n
  have h8 := runStages_from (p := .s8) (fun _ _ => execS8Place_workStep) h9
  have h7 := runStages_from (p := .s7) (fun _ _ => execS7Fpat_workStep) h8
  have h6 := runStages_from (p := .s6) (fun _ _ => execS6Ilv_workStep) h7
  have h5 := runStages_from (p := .s5) (fun _ _ => execS5Rsenc_workStep) h6
  have h4 := runStages_from (p := .s4) (fun _ _ => execS4Asm_workStep) h5
  have h3 := runStages_from (p := .s3) (fun _ _ => execS3Boost_workStep) h4
  have h2 := runStages_from (p := .s2) (fun _ _ => execS2Vsel_workStep) h3
  simp only [runFromS2, finish_andThen, andThen_assoc]
  exact h2 s h

/-- Stages S1 to S10 and the completion, as the run of the stages from S1. -/
theorem runStages_s1 (n : Nat) {s : State} (h : AtStage .s1 s) :
    runStages (n + 11) s = finish (andThen (execS1Segb s) runFromS2) := by
  rw [finish_andThen]
  exact runStages_from (p := .s1) (fun _ _ => execS1Segb_workStep) (fun _ => runStages_s2 n) s h

/-! ### The commands -/

/-- The state in which ENCTXT enters S1 (R261). -/
def enctxtStart (ecc : Level) (s : State) : State :=
  setStage .s1 (latchOperands ecc 1 40 (-1) true (startEncode (encodeEnctxt ecc) s))

/-- The state in which ENCSEG enters S2, its checks passed and its segments cut (R262). -/
def encsegStart (ecc : Level) (minv maxv : Nat) (mask : Int) (boost : Bool) (segs : List Segment) (s : State) : State :=
  setStage .s2 (latchOperands ecc minv maxv mask boost
    (setWork { Work.reset with segs := segs } (startEncode (encodeEncseg ecc minv maxv mask boost) s)))

/-- The state in which GETMOD enters S11 (R263). -/
def getmodStart (x y : Int) (s : State) : State := setStage .s11 (startCommand (encodeGetmod x y) s)

theorem execEnctxt_eq_runStages (ecc : Level) (s : State) :
    execEnctxt ecc s = runStages 12 (enctxtStart ecc s) :=
  (runStages_s1 1 ⟨rfl, rfl⟩).symm

theorem finish_runFromS2_encsegStart (ecc : Level) (minv maxv : Nat) (mask : Int) (boost : Bool) (segs : List Segment)
    (s : State) : finish (runFromS2 (encsegStart ecc minv maxv mask boost segs s))
      = runStages 12 (encsegStart ecc minv maxv mask boost segs s) :=
  (runStages_s2 2 ⟨rfl, rfl⟩).symm

/-- ENCSEG on operands in range and segments that load runs the stages on those segments. -/
theorem execEncseg_eq_finish {ecc : Level} {minv maxv : Nat} {mask : Int} {boost : Bool} {segs : List Segment}
    {s : State} (hv : VersionsInRange minv maxv) (hm : MaskInRange mask)
    (hload : ∀ k, loadSegments (startEncode (encodeEncseg ecc minv maxv mask boost) s) k = k segs) :
    execEncseg ecc minv maxv mask boost s = finish (runFromS2 (encsegStart ecc minv maxv mask boost segs s)) := by
  rw [execEncseg, runEncSeg, if_neg (not_not.mpr hv), if_neg (not_not.mpr hm), hload]
  rfl

/-- The coordinate fields of a GETMOD word (R94). -/
theorem encodeGetmod_fields (x y : Int) :
    (encodeGetmod x y).extractLsb' 0 12 = BitVec.ofInt 12 x
      ∧ (encodeGetmod x y).extractLsb' 12 12 = BitVec.ofInt 12 y := by
  unfold encodeGetmod
  generalize BitVec.ofInt 12 x = a, BitVec.ofInt 12 y = b
  constructor <;>
  · apply BitVec.eq_of_getLsbD_eq
    intro i hi
    interval_cases i <;> simp

/-- A coordinate in the range of its field is read back from it (R95). -/
theorem toInt_ofInt_coord {c : Int} (h : CoordOperandFits c) : (BitVec.ofInt 12 c).toInt = c := by
  rw [BitVec.toInt_ofInt, Int.bmod_eq_of_le] <;> omega

theorem coordX_encodeGetmod {x : Int} (y : Int) (h : CoordOperandFits x) : coordX (encodeGetmod x y) = x := by
  rw [coordX, (encodeGetmod_fields x y).1, toInt_ofInt_coord h]

theorem coordY_encodeGetmod (x : Int) {y : Int} (h : CoordOperandFits y) : coordY (encodeGetmod x y) = y := by
  rw [coordY, (encodeGetmod_fields x y).2, toInt_ofInt_coord h]

theorem execGetmod_eq_runStages {x y : Int} (hx : CoordOperandFits x) (hy : CoordOperandFits y) (s : State) :
    execGetmod x y s = runStages 2 (getmodStart x y s) := by
  have hs : execS11Getm (getmodStart x y s) = getModule x y (getmodStart x y s) := by
    rw [execS11Getm, getmodStart, setStage_cmd, startCommand_cmd, coordX_encodeGetmod y hx, coordY_encodeGetmod x hy]
  rw [runStages_s11 0 ⟨rfl, rfl⟩, hs]
  rfl

/-- What ENCSEG can do: raise, be refused, or run its stages from S2 on segments cut from the buffers. -/
theorem execEncseg_cases (ecc : Level) (minv maxv : Nat) (mask : Int) (boost : Bool) (s : State) :
    (∃ c, execEncseg ecc minv maxv mask boost s
        = .next (raise c (startEncode (encodeEncseg ecc minv maxv mask boost) s)))
      ∨ (∃ sp i, execEncseg ecc minv maxv mask boost s = .refused (.unwrittenElement sp i))
      ∨ (VersionsInRange minv maxv ∧ MaskInRange mask ∧ ∃ segs, execEncseg ecc minv maxv mask boost s
          = runStages 12 (encsegStart ecc minv maxv mask boost segs s)) := by
  unfold execEncseg runEncSeg
  split
  · exact .inl ⟨_, finish_next_idle rfl⟩
  split
  · exact .inl ⟨_, finish_next_idle rfl⟩
  rename_i hv hm
  obtain h | ⟨sp, i, h⟩ | ⟨tab, bytes, -, -, h⟩ := loadSegments_cases
    (startEncode (encodeEncseg ecc minv maxv mask boost) s) _ <;> rw [h]
  · exact .inl ⟨_, finish_next_idle rfl⟩
  · exact .inr (.inl ⟨sp, i, rfl⟩)
  · exact .inr (.inr ⟨not_not.mp hv, not_not.mp hm, _, finish_runFromS2_encsegStart ..⟩)

/-- What GETMOD can do: put a module of the held Symbol in RESULT and complete, or raise. -/
theorem execGetmod_cases (x y : Int) (s : State) :
    (∃ b, execGetmod x y s = .next (complete (setStage .s0 (setResult b (getmodStart x y s)))))
      ∨ execGetmod x y s = .next (raise .coordRange (getmodStart x y s)) := by
  unfold execGetmod
  obtain ⟨-, h⟩ | ⟨-, h⟩ := getModule_cases x y (setStage .s11 (startCommand (encodeGetmod x y) s)) <;> rw [h]
  · exact .inl ⟨_, finish_next_busy rfl⟩
  · exact .inr (finish_next_idle rfl)

/-- A command word decodes to one of the three commands. -/
theorem decode_command_cases {w : Word} {i : Instr} (h : decode (.command w) = .ok i) :
    (∃ ecc, i = .enctxt ecc) ∨ (∃ ecc minv maxv mask boost, i = .encseg ecc minv maxv mask boost)
      ∨ ∃ x y, i = .getmod x y := by
  simp only [decode, decodeCommand] at h
  split at h
  · split at h <;> cases h; exact .inl ⟨_, rfl⟩
  · split at h <;> cases h; exact .inr (.inl ⟨_, _, _, _, _, rfl⟩)
  · split at h <;> cases h; exact .inr (.inr ⟨_, _, rfl⟩)
  · cases h

/-- The run of a command's stages leaves RESULT where none of them is S11. -/
theorem runStages_result (n : Nat) {s t : State} (hs : s.stage ≠ .s11) (h : runStages n s = .next t) :
    t.result = s.result := by
  refine (runStages_keeps (P := fun u => u.stage ≠ .s11 ∧ u.result = s.result) ?_ n ⟨hs, rfl⟩ h).2
  rintro u v ⟨hu, hr⟩ hb h
  obtain ⟨-, rfl⟩ | ⟨p, hp, h⟩ | ⟨-, rfl⟩ | ⟨h, -⟩ := advance_cases h
  · exact ⟨by simp, hr⟩
  · refine ⟨?_, h.result_eq.trans hr⟩
    cases hv : v.busy
    · rw [h.stage_of_idle hb hv]; decide
    · rw [h.stage_of_busy hv]; exact hp
  · exact ⟨by simp, (finalState_result u).trans hr⟩
  · exact absurd h hu

/-- Where the run of a command's stages is idle, STAGE is S0. -/
theorem runStages_stage_of_idle (n : Nat) {s t : State} (hs : s.busy = true) (h : runStages n s = .next t)
    (ht : t.busy = false) : t.stage = .s0 := by
  refine runStages_keeps (P := fun u => u.busy = false → u.stage = .s0) ?_ n (by simp [hs]) h ht
  rintro u v - hb h hv
  obtain ⟨-, rfl⟩ | ⟨p, -, h⟩ | ⟨-, rfl⟩ | ⟨-, ⟨b, rfl⟩ | rfl⟩ := advance_cases h
  · rfl
  · exact h.stage_of_idle hb hv
  · exact finalState_stage u
  · rfl
  · rfl

end Sys2Proof.Machine

end

section
/-! PROOFS. The statements on the course of a command and on who writes SYM and RESULT (O52, O56, O57, O11, O51). -/

namespace Sys2Proof.Machine

/-! ### SYM and RESULT -/

/-- A change of the working state alone is a work step that stays in its stage. -/
theorem workStep_setWork (w : Work) (s : State) : WorkStep s.stage s (setWork w s) := .worked (p := s.stage) (s := s) w

/-- An operation other than the commands, S10 and S11 does no more than a work step; the mask and level rows stay in the
stage they were in. -/
theorem exec_cases {i : Instr} {s t : State} (h : exec i s = .next t) :
    (∃ p, WorkStep p s t) ∨ (∃ ecc, i = .enctxt ecc) ∨ (∃ ecc minv maxv mask boost, i = .encseg ecc minv maxv mask boost)
      ∨ (∃ x y, i = .getmod x y) ∨ i = .s10Final ∨ i = .s11Getm := by
  cases i with
  | enctxt ecc => exact .inr (.inl ⟨_, rfl⟩)
  | encseg ecc minv maxv mask boost => exact .inr (.inr (.inl ⟨_, _, _, _, _, rfl⟩))
  | getmod x y => exact .inr (.inr (.inr (.inl ⟨_, _, rfl⟩)))
  | s10Final => exact .inr (.inr (.inr (.inr (.inl rfl))))
  | s11Getm => exact .inr (.inr (.inr (.inr (.inr rfl))))
  | s1Segb => exact .inl ⟨_, execS1Segb_workStep h⟩
  | s2Vsel => exact .inl ⟨_, execS2Vsel_workStep h⟩
  | s3Boost => exact .inl ⟨_, execS3Boost_workStep h⟩
  | s4Asm => exact .inl ⟨_, execS4Asm_workStep h⟩
  | s5Rsenc => exact .inl ⟨_, execS5Rsenc_workStep h⟩
  | s6Ilv => exact .inl ⟨_, execS6Ilv_workStep h⟩
  | s7Fpat => exact .inl ⟨_, execS7Fpat_workStep h⟩
  | s8Place => exact .inl ⟨_, execS8Place_workStep h⟩
  | s9Msel => exact .inl ⟨_, execS9Msel_workStep h⟩
  | mask0 | mask1 | mask2 | mask3 | mask4 | mask5 | mask6 | mask7 => cases h; exact .inl ⟨_, workStep_setWork _ s⟩
  | eccLow | eccMedium | eccQuartile | eccHigh => cases h; exact .inl ⟨_, workStep_setWork _ s⟩

theorem execEnctxt_result {ecc : Level} {s t : State} (h : execEnctxt ecc s = .next t) : t.result = s.result := by
  rw [execEnctxt_eq_runStages] at h
  exact runStages_result 12 (s := enctxtStart ecc s) (by simp [enctxtStart]) h

theorem execEncseg_result {ecc : Level} {minv maxv : Nat} {mask : Int} {boost : Bool} {s t : State}
    (h : execEncseg ecc minv maxv mask boost s = .next t) : t.result = s.result := by
  obtain ⟨c, h'⟩ | ⟨sp, i, h'⟩ | ⟨-, -, segs, h'⟩ := execEncseg_cases ecc minv maxv mask boost s <;> rw [h'] at h
  · cases h; rfl
  · cases h
  · exact runStages_result 12 (s := encsegStart ecc minv maxv mask boost segs s) (by simp [encsegStart]) h

theorem execGetmod_sym {x y : Int} {s t : State} (h : execGetmod x y s = .next t) : t.sym = s.sym := by
  obtain ⟨b, h'⟩ | h' := execGetmod_cases x y s <;> rw [h'] at h <;> cases h <;> rfl

theorem execS10Final_result {s t : State} (h : execS10Final s = .next t) : t.result = s.result := by
  rw [execS10Final_eq] at h
  cases h
  exact finalState_result s

theorem execS11Getm_sym {s t : State} (h : execS11Getm s = .next t) : t.sym = s.sym := by
  obtain ⟨b, rfl⟩ | rfl := execS11Getm_cases h <;> rfl

/-! ### Idle steps -/

/-- A command that a word can hold ends idle, in S0. -/
theorem exec_command_idle {w : Word} {i : Instr} {s t : State} (hd : decode (.command w) = .ok i)
    (h : exec i s = .next t) : t.busy = false ∧ t.stage = .s0 := by
  obtain ⟨ecc, rfl⟩ | ⟨ecc, minv, maxv, mask, boost, rfl⟩ | ⟨x, y, rfl⟩ := decode_command_cases hd
  · have hb : t.busy = false := finish_idle h
    rw [exec, execEnctxt_eq_runStages] at h
    exact ⟨hb, runStages_stage_of_idle 12 rfl h hb⟩
  · have hb : t.busy = false := finish_idle h
    rw [exec] at h
    obtain ⟨c, h'⟩ | ⟨sp, i, h'⟩ | ⟨-, -, segs, h'⟩ := execEncseg_cases ecc minv maxv mask boost s <;> rw [h'] at h
    · cases h; exact ⟨rfl, rfl⟩
    · cases h
    · exact ⟨hb, runStages_stage_of_idle 12 rfl h hb⟩
  · rw [exec] at h
    obtain ⟨b, h'⟩ | h' := execGetmod_cases x y s <;> rw [h'] at h <;> cases h <;> exact ⟨rfl, rfl⟩

/-- An element access that goes on is one to elements that exist. -/
theorem elementAccess_next {sp : Space} {a n : Nat} {s u t : State} (h : elementAccess sp a n s u = .next t) :
    a + n ≤ s.cfg.elements sp ∧ t = u := by
  obtain ⟨ha, h'⟩ | ⟨-, h'⟩ := elementAccess_cases sp a n s u <;> rw [h'] at h <;> cases h
  exact ⟨ha, rfl⟩

/-- One access of the host, made while QRSE is idle, leaves it idle. -/
theorem hostStep_idle {act : HostAction} {s t : State} (hb : s.busy = false) (hs : s.stage = .s0)
    (h : hostStep act s = .next t) : t.busy = false ∧ t.stage = .s0 := by
  cases act with
  | readReg i => cases h; exact ⟨hb, hs⟩
  | writeReg i v =>
    by_cases hi : i = 0
    · simp only [hostStep, hi, if_true, executeCommand] at h
      split at h
      · cases h; exact ⟨rfl, rfl⟩
      · exact exec_command_idle ‹_› h
    · simp only [hostStep, hi, if_false] at h
      cases h
      rw [writeReg_frame]
      exact ⟨hb, hs⟩
  | readElements _ _ _ | writeText _ _ | writeSegtab _ _ | writeSegdata _ _ =>
    obtain ⟨-, rfl⟩ := elementAccess_next h
    exact ⟨hb, hs⟩
  | reset => cases h; exact ⟨rfl, rfl⟩

/-! ### The statements -/

/-- Settles O52: the nested continuations of a command are the iterated `advance`, since each stage that goes
on hands over to the next one. -/
theorem commandIsItsStagesInOrder : Obligations.CommandIsItsStagesInOrder := by
  refine ⟨fun s ecc => execEnctxt_eq_runStages ecc s, ?_, fun s x y hx hy => execGetmod_eq_runStages hx hy s⟩
  intro s ecc minv maxv mask boost segs hv hm hload
  rw [exec, execEncseg_eq_finish hv hm hload]
  exact finish_runFromS2_encsegStart ecc minv maxv mask boost segs s

/-- Settles O56: all but five instructions do no more than a work step, and each of the five is
excluded or keeps the field. -/
theorem symbolAndResultHaveOneWriter : Obligations.SymbolAndResultHaveOneWriter := by
  intro i s t h
  obtain ⟨p, hw⟩ | ⟨ecc, rfl⟩ | ⟨ecc, minv, maxv, mask, boost, rfl⟩ | ⟨x, y, rfl⟩ | rfl | rfl := exec_cases h
  · exact ⟨fun _ _ _ => hw.sym_eq, fun _ _ => hw.result_eq⟩
  · exact ⟨fun hE _ _ => absurd rfl (hE ecc), fun _ _ => execEnctxt_result h⟩
  · exact ⟨fun _ hS _ => absurd rfl (hS ecc minv maxv mask boost), fun _ _ => execEncseg_result h⟩
  · exact ⟨fun _ _ _ => execGetmod_sym h, fun hG _ => absurd rfl (hG x y)⟩
  · exact ⟨fun _ _ h10 => absurd rfl h10, fun _ _ => execS10Final_result h⟩
  · exact ⟨fun _ _ _ => execS11Getm_sym h, fun _ h11 => absurd rfl h11⟩

/-- Settles O57, by the cases of a step from idle; a command ends idle since it either completes or raises. -/
theorem idleStepsEndIdle : Obligations.IdleStepsEndIdle := by
  intro s t hb hs h
  obtain ⟨hb', -⟩ | ⟨-, -, h'⟩ | ⟨act, rest, -, -, h'⟩ := step_cases s
  · rw [hb] at hb'; cases hb'
  · rw [h'] at h; cases h; exact ⟨hb, hs⟩
  · rw [h'] at h; exact hostStep_idle (s := { s with pending := rest }) hb hs h

/-- Settles O11, from the cases of a step. -/
theorem stageStepRunsTheSelectedOperation : Obligations.StageStepRunsTheSelectedOperation := by
  have running : ∀ s : State, s.busy = true → (∀ rest, s.pending ≠ .reset :: rest) → step s = advance s := by
    intro s hb hp
    obtain ⟨-, -, h⟩ | ⟨-, h, -⟩ | ⟨act, rest, h, h' | rfl, -⟩ := step_cases s
    · exact h
    · rw [hb] at h; cases h
    · rw [hb] at h'; cases h'
    · exact absurd h (hp rest)
  refine ⟨fun s i hb hp hd => ?_, fun s hb hp hs => ?_, fun s hb hp => ?_⟩
  · rw [running s hb hp, advance, hd]
  · rw [running s hb hp, advance_eq_stageOp, hs, stageOp]
    simp [complete]
  · simp [step, hb, nextAccess, hp]

/-- Settles O51, row by row. -/
theorem levelRowsLatchTheirLevel : Obligations.LevelRowsLatchTheirLevel := by
  intro i l o f h
  simp only [List.mem_cons, List.not_mem_nil, or_false, Prod.mk.injEq] at h
  obtain ⟨rfl, rfl, rfl, rfl⟩ | ⟨rfl, rfl, rfl, rfl⟩ | ⟨rfl, rfl, rfl, rfl⟩ | ⟨rfl, rfl, rfl, rfl⟩ := h <;>
    exact ⟨rfl, rfl, rfl, rfl, fun _ => rfl⟩

end Sys2Proof.Machine
end

section
/-! PROOFS. The construction grids: their shape, what a mask and a format word do to them, and the mask search
(spec/45_function_patterns.md to spec/47_mask_and_penalty.md). -/

namespace Sys2Proof.Machine

/-! ### The shape of the grids -/

/-- Both grids of a canvas have its side. -/
def Canvas.Square (c : Canvas) : Prop := c.m.square c.size = true ∧ c.f.square c.size = true

/-- A grid reads light outside. -/
theorem get_outside {g : Grid} {n x y : Nat} (h : g.square n = true) (hxy : ¬(x < n ∧ y < n)) : g.get x y = false := by
  obtain ⟨hl, hr⟩ := (square_iff g n).mp h
  unfold Grid.get
  by_cases hy : y < g.rows.length
  · have hx : (g.rows[y]).length ≤ x := by rw [hr _ (List.getElem_mem hy)]; omega
    simp [List.getD, hy, List.getElem?_eq_none hx]
  · simp [List.getD, List.getElem?_eq_none (Nat.le_of_not_lt hy)]

/-- Grids of one side are equal where all their modules are. -/
theorem grid_ext {g h : Grid} {n : Nat} (hg : g.square n = true) (hh : h.square n = true)
    (hget : ∀ x y, g.get x y = h.get x y) : g = h := by
  obtain ⟨hgl, hgr⟩ := (square_iff g n).mp hg
  obtain ⟨hhl, hhr⟩ := (square_iff h n).mp hh
  obtain ⟨gs⟩ := g
  obtain ⟨hs⟩ := h
  congr 1
  refine List.ext_getElem (hgl.trans hhl.symm) fun y hy hy' => ?_
  refine List.ext_getElem ((hgr _ (List.getElem_mem hy)).trans (hhr _ (List.getElem_mem hy')).symm) fun x hx hx' => ?_
  simpa [Grid.get, List.getD, hy, hy', hx, hx'] using hget x y

theorem setFnAll_size (cells : List (Nat × Nat × Bool)) (c : Canvas) : (setFnAll cells c).size = c.size := by
  induction cells generalizing c with
  | nil => rfl
  | cons p rest ih => exact ih (setFn p.1 p.2.1 p.2.2 c)

theorem Canvas.Square.setFn {c : Canvas} (h : c.Square) (x y : Nat) (b : Bool) : (setFn x y b c).Square :=
  ⟨set_square _ _ _ _ _ h.1, set_square _ _ _ _ _ h.2⟩

theorem Canvas.Square.setFnAll {c : Canvas} (h : c.Square) (cells : List (Nat × Nat × Bool)) :
    (setFnAll cells c).Square := by
  obtain ⟨hsize, hm, hf⟩ := setFnAll_square cells c h.1 h.2
  exact ⟨hsize ▸ hm, hsize ▸ hf⟩

/-- Both the side and the shape are kept. -/
def KeepsShape (f : Canvas → Canvas) : Prop := ∀ c, (f c).size = c.size ∧ (c.Square → (f c).Square)

theorem setFn_keepsShape (x y : Nat) (b : Bool) : KeepsShape (setFn x y b) := fun _ => ⟨rfl, fun h => h.setFn x y b⟩

theorem setFnAll_keepsShape (cells : List (Nat × Nat × Bool)) : KeepsShape (setFnAll cells) :=
  fun c => ⟨setFnAll_size cells c, fun h => h.setFnAll cells⟩

theorem KeepsShape.comp {f g : Canvas → Canvas} (hf : KeepsShape f) (hg : KeepsShape g) : KeepsShape fun c => f (g c) :=
  fun c => ⟨(hf _).1.trans (hg c).1, fun h => (hf _).2 ((hg c).2 h)⟩

theorem setFnIfFree_keepsShape (x y : Nat) (b : Bool) : KeepsShape (setFnIfFree x y b) := by
  intro c
  unfold setFnIfFree
  split
  · exact ⟨rfl, id⟩
  · exact setFn_keepsShape x y b c

theorem foldl_keepsShape {f : Canvas → Nat → Canvas} (hf : ∀ i, KeepsShape fun c => f c i) (is : List Nat) :
    KeepsShape fun c => is.foldl f c := by
  induction is with
  | nil => exact fun c => ⟨rfl, id⟩
  | cons i is ih => exact ih.comp (hf i)

theorem drawTiming_keepsShape : KeepsShape drawTiming := fun c =>
  foldl_keepsShape (fun i => (setFnIfFree_keepsShape 6 i (i % 2 == 0)).comp (setFnIfFree_keepsShape i 6 (i % 2 == 0)))
    (List.range c.size) c

theorem drawFinders_keepsShape : KeepsShape drawFinders := fun c => setFnAll_keepsShape _ c

theorem drawAlignment_keepsShape (v : Nat) : KeepsShape (drawAlignment v) := fun c => setFnAll_keepsShape _ c

theorem drawFormatBitsWord_keepsShape (w : BitVec 15) : KeepsShape (drawFormatBitsWord w) :=
  fun c => setFnAll_keepsShape _ c

theorem drawVersion_keepsShape (v : Nat) : KeepsShape (drawVersion v) := by
  intro c
  unfold drawVersion
  split
  · exact setFnAll_keepsShape _ c
  · exact ⟨rfl, id⟩

theorem functionPatterns_shape (v : Nat) : (functionPatterns v).size = sideOf v ∧ (functionPatterns v).Square := by
  have hkeep : KeepsShape fun c => drawVersion v (setFn 8 (sideOf v - 8) true
      (drawFormatBitsWord 0 (drawAlignment v (drawTiming (drawFinders c))))) :=
    (drawVersion_keepsShape v).comp <| (setFn_keepsShape _ _ _).comp <| (drawFormatBitsWord_keepsShape 0).comp <|
      (drawAlignment_keepsShape v).comp <| drawTiming_keepsShape.comp drawFinders_keepsShape
  obtain ⟨hsize, hsq⟩ := hkeep { size := sideOf v, m := Grid.blank (sideOf v), f := Grid.blank (sideOf v) }
  exact ⟨hsize, hsq ⟨blank_square _, blank_square _⟩⟩

theorem placeBits_square {n : Nat} (path : List (Nat × Nat)) (bits : List Bool) {m : Grid} (h : m.square n = true) :
    (placeBits path bits m).square n = true := by
  unfold placeBits
  generalize path.zip bits = ps
  induction ps generalizing m with
  | nil => exact h
  | cons p ps ih => exact ih (set_square _ _ _ _ _ h)

theorem placedCanvas_shape (v : Nat) (l : Level) (segs : List Segment) :
    (placedCanvas v l segs).size = sideOf v ∧ (placedCanvas v l segs).Square := by
  obtain ⟨hsize, hm, hf⟩ := functionPatterns_shape v
  exact ⟨hsize, placeBits_square _ _ hm, hf⟩

theorem applyMask_keepsShape (k : Nat) : KeepsShape (applyMask k) :=
  fun _ => ⟨rfl, fun h => ⟨build_square _ _, h.2⟩⟩

theorem candidate_keepsShape (l : Level) (k : Nat) : KeepsShape fun c => candidate l c k := by
  simp only [candidate, drawFormatBits]
  exact (drawFormatBitsWord_keepsShape (formatWord l k)).comp (applyMask_keepsShape k)

/-- The working grids have the side of VER, as the two conditions of R41. -/
theorem canvasOf_square_iff (w : Work) : (canvasOf w).Square ↔ w.GridsDrawn := Iff.rfl

/-! ### Canvases that differ in given cells only -/

/-- Two canvases have the same side and differ at most in the given cells. -/
def SameOff (cells : List (Nat × Nat)) (c d : Canvas) : Prop :=
  d.size = c.size ∧ ∀ x y, (x, y) ∉ cells → d.m.get x y = c.m.get x y ∧ d.f.get x y = c.f.get x y

theorem SameOff.refl (cells : List (Nat × Nat)) (c : Canvas) : SameOff cells c c := ⟨rfl, fun _ _ _ => ⟨rfl, rfl⟩⟩

theorem canvas_ext {c d : Canvas} (hc : c.Square) (hd : d.Square) (h : SameOff [] c d) : d = c := by
  obtain ⟨hsize, hget⟩ := h
  have hm : d.m = c.m := grid_ext (hsize ▸ hd.1) hc.1 fun x y => (hget x y List.not_mem_nil).1
  have hf : d.f = c.f := grid_ext (hsize ▸ hd.2) hc.2 fun x y => (hget x y List.not_mem_nil).2
  cases c; cases d; simp_all

/-- The cells that a drawing sets. -/
def placesOf (cells : List (Nat × Nat × Bool)) : List (Nat × Nat) := cells.map fun p => (p.1, p.2.1)

/-- `SetFn` makes two canvases agree in its cell. -/
theorem SameOff.setFn {c d : Canvas} {x y : Nat} {rest : List (Nat × Nat)} (b : Bool) (hc : c.Square) (hd : d.Square)
    (h : SameOff ((x, y) :: rest) c d) : SameOff rest (setFn x y b c) (setFn x y b d) := by
  refine ⟨h.1, fun x' y' hr => ?_⟩
  simp only [Machine.setFn, get_set _ _ _ _ _ _ _ hc.1, get_set _ _ _ _ _ _ _ hc.2, get_set _ _ _ _ _ _ _ hd.1,
    get_set _ _ _ _ _ _ _ hd.2, h.1]
  by_cases hin : x' = x ∧ y' = y
  · by_cases hrange : x < c.size ∧ y < c.size
    · simp [hin, hrange]
    · have hout : ∀ g : Grid, g.square c.size = true → g.get x' y' = false := fun g hg =>
        get_outside hg (by rw [hin.1, hin.2]; exact hrange)
      have hrange' : ¬(x' = x ∧ y' = y ∧ x < c.size ∧ y < c.size) := fun h => hrange h.2.2
      simp only [if_neg hrange', hout _ hc.1, hout _ hc.2, hout _ (h.1 ▸ hd.1), hout _ (h.1 ▸ hd.2), and_self]
  · have hin' : ¬(x' = x ∧ y' = y ∧ x < c.size ∧ y < c.size) := fun h => hin ⟨h.1, h.2.1⟩
    simp only [if_neg hin']
    exact h.2 x' y' (by simp [hr, hin])

/-- A drawing makes two canvases agree in all its cells. -/
theorem setFnAll_congr {cells : List (Nat × Nat × Bool)} {c d : Canvas} (hc : c.Square) (hd : d.Square)
    (h : SameOff (placesOf cells) c d) : setFnAll cells d = setFnAll cells c := by
  induction cells generalizing c d with
  | nil => exact canvas_ext hc hd h
  | cons p rest ih => exact ih (hc.setFn _ _ _) (hd.setFn _ _ _) (h.setFn _ hc hd)

/-- A drawing changes its own cells only. -/
theorem sameOff_setFnAll {cells : List (Nat × Nat × Bool)} {c : Canvas} (hc : c.Square) :
    SameOff (placesOf cells) c (setFnAll cells c) := by
  refine ⟨setFnAll_size cells c, ?_⟩
  induction cells generalizing c with
  | nil => exact fun _ _ _ => ⟨rfl, rfl⟩
  | cons p rest ih =>
    intro x y hxy
    simp only [placesOf, List.map_cons, List.mem_cons, not_or, Prod.mk.injEq] at hxy
    have hne : ¬(x = p.1 ∧ y = p.2.1 ∧ p.1 < c.size ∧ p.2.1 < c.size) := fun h => hxy.1 ⟨h.1, h.2.1⟩
    have h := ih (hc.setFn p.1 p.2.1 p.2.2) x y hxy.2
    simp only [Machine.setFn, get_set _ _ _ _ _ _ _ hc.1, get_set _ _ _ _ _ _ _ hc.2, if_neg hne] at h
    exact h

/-! ### Masks and format words -/

/-- The cells of a format word and the dark module (R252). -/
def formatPlaces (size : Nat) : List (Nat × Nat) := placesOf (formatCells size 0)

theorem placesOf_formatCells (size : Nat) (w : BitVec 15) : placesOf (formatCells size w) = formatPlaces size := by
  simp [formatPlaces, placesOf, formatCells, Function.comp_def]

/-- What a module holds after a mask. -/
theorem applyMask_get (k : Nat) (c : Canvas) (x y : Nat) :
    (applyMask k c).m.get x y = (decide (x < c.size ∧ y < c.size) && maskedModule (maskPred k) c x y) :=
  get_build _ _ _ _

theorem SameOff.applyMask {cells : List (Nat × Nat)} {c d : Canvas} (k : Nat) (h : SameOff cells c d) :
    SameOff cells (applyMask k c) (applyMask k d) := by
  refine ⟨h.1, fun x y hxy => ⟨?_, (h.2 x y hxy).2⟩⟩
  rw [applyMask_get, applyMask_get, h.1]
  simp only [maskedModule, h.2 x y hxy]

/-- A mask undoes itself (R229), also on a canvas that differs from the masked one in some cells. -/
theorem SameOff.applyMask_undo {cells : List (Nat × Nat)} {c d : Canvas} (k : Nat) (hc : c.Square)
    (h : SameOff cells (Machine.applyMask k c) d) : SameOff cells c (Machine.applyMask k d) := by
  refine ⟨h.1, fun x y hxy => ?_⟩
  obtain ⟨hm, hf⟩ := h.2 x y hxy
  refine ⟨?_, hf⟩
  have hf' : d.f.get x y = c.f.get x y := hf
  have hsize : d.size = c.size := h.1
  rw [applyMask_get, maskedModule, hm, hf', applyMask_get, maskedModule, hsize]
  by_cases hin : x < c.size ∧ y < c.size
  · cases c.f.get x y <;> cases maskPred k x y <;> simp [hin]
  · simp [hin, get_outside hc.1 hin]

/-- The candidate of a mask does not depend on the format cells it is drawn over. -/
theorem candidate_congr {c d : Canvas} (l : Level) (k : Nat) (hc : c.Square) (hd : d.Square)
    (h : SameOff (formatPlaces c.size) c d) : candidate l d k = candidate l c k := by
  have hsize : (applyMask k d).size = (applyMask k c).size := h.1
  rw [candidate, candidate, drawFormatBits, drawFormatBits, drawFormatBitsWord, drawFormatBitsWord, hsize]
  refine setFnAll_congr ((applyMask_keepsShape k c).2 hc) ((applyMask_keepsShape k d).2 hd) ?_
  rw [placesOf_formatCells]
  exact h.applyMask k

/-- Outside the format cells, a candidate with its mask undone is the canvas it was made of. -/
theorem sameOff_candidate_undone {c : Canvas} (l : Level) (k : Nat) (hc : c.Square) :
    SameOff (formatPlaces c.size) c (applyMask k (candidate l c k)) := by
  refine SameOff.applyMask_undo k hc ?_
  have h := sameOff_setFnAll (cells := formatCells (applyMask k c).size (formatWord l k))
    ((applyMask_keepsShape k c).2 hc)
  rw [placesOf_formatCells] at h
  exact h

/-! ### The mask search -/

/-- The best of a list of masks so far, each with the penalty of its own candidate (R236). -/
def bestOf (p : Nat → Nat) (ks : List Nat) (best : Option (Nat × Nat)) : Option (Nat × Nat) :=
  ks.foldl (fun best k => better best k (p k)) best

/-- The lowest of the masks 0 to n with the lowest penalty is the best of them in ascending order. -/
theorem bestOf_range (p : Nat → Nat) (n : Nat) :
    ∃ k, bestOf p (List.range (n + 1)) none = some (k, p k) ∧ k ≤ n ∧ (∀ j, j ≤ n → p k ≤ p j)
      ∧ ∀ j, j < k → p k < p j := by
  induction n with
  | zero => exact ⟨0, rfl, le_rfl, fun j hj => by rw [Nat.le_zero.mp hj], fun j hj => absurd hj (Nat.not_lt_zero j)⟩
  | succ n ih =>
    obtain ⟨k, hk, hkn, hmin, hfirst⟩ := ih
    have hstep : bestOf p (List.range (n + 2)) none = better (some (k, p k)) (n + 1) (p (n + 1)) := by
      rw [← hk, List.range_succ, bestOf, List.foldl_append]
      rfl
    rw [hstep, better]
    split
    · rename_i hlt
      refine ⟨n + 1, rfl, le_rfl, fun j hj => ?_, fun j hj => ?_⟩
      · rcases Nat.lt_or_ge n j with h | h
        · rw [show j = n + 1 by omega]
        · exact hlt.le.trans (hmin j h)
      · exact hlt.trans_le (hmin j (by omega))
    · rename_i hge
      refine ⟨k, rfl, by omega, fun j hj => ?_, hfirst⟩
      rcases Nat.lt_or_ge n j with h | h
      · rw [show j = n + 1 by omega]; omega
      · exact hmin j h

/-- The search keeps the grids outside the format cells, and scores each mask as on a copy of its own (R239). -/
theorem foldl_tryMask (cfg : Cfg) (l : Level) {c : Canvas} (hc : c.Square) (ks : List Nat)
    (acc : Canvas × Option (Nat × Nat)) (hs : acc.1.Square) (h : SameOff (formatPlaces c.size) c acc.1) :
    (ks.foldl (tryMask cfg l) acc).1.Square
      ∧ SameOff (formatPlaces c.size) c (ks.foldl (tryMask cfg l) acc).1
      ∧ (ks.foldl (tryMask cfg l) acc).2 = bestOf (candidatePenalty cfg l c) ks acc.2 := by
  induction ks generalizing acc with
  | nil => exact ⟨hs, h, rfl⟩
  | cons k ks ih =>
    have hcand := candidate_keepsShape l k c
    have htry : tryMask cfg l acc k
        = (applyMask k (candidate l c k), better acc.2 k (candidatePenalty cfg l c k)) := by
      have hdrawn : drawFormatBits l k (applyMask k acc.1) = candidate l c k := candidate_congr l k hc hs h
      rw [tryMask, hdrawn, candidatePenalty, hcand.1]
    rw [List.foldl_cons, htry]
    exact ih _ ((applyMask_keepsShape k _).2 (hcand.2 hc)) (sameOff_candidate_undone l k hc)

/-- `SelectMask` finds the first mask of lowest penalty, and leaves the grids as they were outside the format cells. -/
theorem selectMask_spec (cfg : Cfg) (l : Level) {c : Canvas} (hc : c.Square) :
    ∃ d k, selectMask cfg l c = (d, some (k, candidatePenalty cfg l c k)) ∧ IsFirstBest (candidatePenalty cfg l c) k
      ∧ d.Square ∧ SameOff (formatPlaces c.size) c d := by
  obtain ⟨hs, hsame, hbest⟩ := foldl_tryMask cfg l hc (List.range 8) (c, none) hc (.refl _ c)
  obtain ⟨k, hk, hfirst⟩ := bestOf_range (candidatePenalty cfg l c) 7
  exact ⟨_, k, Prod.ext rfl (hbest.trans hk), hfirst, hs, hsame⟩

/-- The working state after an automatic selection (R235). -/
theorem autoSelect_spec (cfg : Cfg) {w : Work} (hw : w.GridsDrawn) :
    ∃ d k, autoSelect cfg w
        = withCanvas d { w with bestMask := k, bestPen := candidatePenalty cfg w.ecl (canvasOf w) k }
      ∧ IsFirstBest (candidatePenalty cfg w.ecl (canvasOf w)) k ∧ d.Square
      ∧ SameOff (formatPlaces (sideOf w.ver)) (canvasOf w) d := by
  obtain ⟨d, k, hsel, hfirst, hsq, hsame⟩ := selectMask_spec cfg w.ecl ((canvasOf_square_iff w).mpr hw)
  exact ⟨d, k, by rw [autoSelect, hsel], hfirst, hsq, hsame⟩

end Sys2Proof.Machine
end

section
/-! PROOFS. The invariant of QRSE: it holds after reset, and every step keeps it (O60, O59). -/

namespace Sys2Proof.Machine

/-! ### The buffers -/

theorem Buffer.Wf.write {w n : Nat} {b : Buffer w} (h : b.Wf n) {i : Nat} (v : BitVec w) (hi : i < n) :
    (b.write i v).Wf n := by
  refine ⟨write_keeps_wf b i v h.1, fun j u hj => ?_⟩
  by_cases hji : j = i
  · exact hji ▸ hi
  · exact h.2 j u (read_write_other b v hji ▸ hj)

theorem Buffer.Wf.writeRun {w n : Nat} {b : Buffer w} (h : b.Wf n) (a : Nat) (vs : List (BitVec w))
    (ha : a + vs.length ≤ n) : (b.writeRun a vs).Wf n := by
  induction vs generalizing a b with
  | nil => exact h
  | cons v vs ih =>
    rw [List.length_cons] at ha
    exact ih (h.write v (by omega)) (a + 1) (by omega)

/-! ### The stages -/

theorem reset_work_wf : Work.reset.Wf := ⟨by decide, by decide, by decide, by decide, by decide⟩

/-- The ranges do not speak of the grids. -/
theorem withCanvas_wf (c : Canvas) {w : Work} (h : w.Wf) : (withCanvas c w).Wf := h

/-- A raise ends a command with an error that agrees. -/
theorem inv_raise {s : State} (h : s.Inv) (c : Cause) : (raise c s).Inv :=
  ⟨h.cfg, h.text, h.segtab, h.segdata, h.sym, h.work, fun _ => ⟨rfl, .inr ⟨rfl, rfl, c, rfl⟩⟩,
    fun hb => by simp at hb, fun hb => by simp at hb⟩

/-- A command that completes has no error. -/
theorem inv_complete {s : State} (h : s.Inv) (hb : s.busy = true) : (complete s).Inv :=
  ⟨h.cfg, h.text, h.segtab, h.segdata, h.sym, h.work, fun _ => ⟨rfl, .inl ⟨h.running hb, rfl⟩⟩,
    fun hb => by simp at hb, fun hb => by simp at hb⟩

/-- A command in progress may replace its working state by one in range, drawn where the next stage needs it. -/
theorem inv_work {s : State} (h : s.Inv) (hb : s.busy = true) {p : Stage} {w : Work} (hw : w.Wf)
    (hd : (p = .s8 ∨ p = .s9 ∨ p = .s10) → w.GridsDrawn) : (setStage p (setWork w s)).Inv :=
  ⟨h.cfg, h.text, h.segtab, h.segdata, h.sym, hw, fun hi => absurd (hb.symm.trans hi) (by simp),
    fun _ => h.running hb, fun _ => hd⟩

/-- A command in progress may put a module in RESULT. -/
theorem inv_setResult {s : State} (h : s.Inv) (hb : s.busy = true) (b : Bool) :
    (setStage .s0 (setResult b s)).Inv := by
  have := inv_work (p := .s0) h hb h.work (by simp)
  exact ⟨this.cfg, this.text, this.segtab, this.segdata, this.sym, this.work, this.idle, this.running, this.drawn⟩

/-- A command in progress may commit a Symbol that is one. -/
theorem inv_commit {s : State} (h : s.Inv) (hb : s.busy = true) {w : Work} {y : Sym} (hw : w.Wf) (hy : y.Wf) :
    (setStage .s0 (commit y (setWork w s))).Inv := by
  have := inv_work (p := .s0) h hb hw (by simp)
  exact ⟨this.cfg, this.text, this.segtab, this.segdata, fun _ => hy, this.work, this.idle, this.running, this.drawn⟩

/-- S2 takes a version of the range. -/
theorem firstFit_range {segs : List Segment} {l : Level} {minv maxv v t : Nat}
    (h : firstFit segs l minv maxv = some (v, t)) : minv ≤ v ∧ v ≤ maxv := by
  obtain ⟨u, hu, h⟩ := List.exists_of_findSome?_eq_some h
  rw [List.mem_range'_1] at hu
  split at h
  · cases h
  · split at h <;> cases h
    omega

theorem execS2Vsel_inv {s t : State} (hi : s.Inv) (hb : s.busy = true) (h : execS2Vsel s = .next t) : t.Inv := by
  obtain ⟨-, h'⟩ | ⟨v, n, hfit, h'⟩ := execS2Vsel_cases s <;> rw [h'] at h <;> cases h
  · exact inv_raise hi _
  · obtain ⟨-, hminv, hmaxv, hmask, hbest⟩ := hi.work
    obtain ⟨hlo, hhi⟩ := firstFit_range hfit
    exact inv_work hi hb ⟨⟨hminv.1.trans hlo, hhi.trans hmaxv.2⟩, hminv, hmaxv, hmask, hbest⟩ (by simp)

theorem execS7Fpat_inv {s t : State} (hi : s.Inv) (hb : s.busy = true) (h : execS7Fpat s = .next t) : t.Inv := by
  cases h
  obtain ⟨hsize, hm, hf⟩ := functionPatterns_shape s.work.ver
  rw [hsize] at hm hf
  exact inv_work hi hb (withCanvas_wf _ hi.work) fun _ => ⟨hm, hf⟩

theorem execS8Place_inv {s t : State} (hi : s.Inv) (hb : s.busy = true) (hs : s.stage = .s8)
    (h : execS8Place s = .next t) : t.Inv := by
  cases h
  obtain ⟨hm, hf⟩ := hi.drawn hb (.inl hs)
  exact inv_work hi hb hi.work fun _ => ⟨placeBits_square _ _ hm, hf⟩

theorem execS9Msel_inv {s t : State} (hi : s.Inv) (hb : s.busy = true) (hs : s.stage = .s9)
    (h : execS9Msel s = .next t) : t.Inv := by
  have hdrawn := hi.drawn hb (.inr (.inl hs))
  obtain ⟨hver, hminv, hmaxv, hmask, -⟩ := hi.work
  obtain ⟨-, h'⟩ | ⟨hforced, h'⟩ := execS9Msel_cases s <;> rw [h'] at h
  · obtain ⟨d, k, hsel, hfirst, hsq, hsame⟩ := autoSelect_spec s.cfg hdrawn
    rw [hsel] at h
    cases h
    have hsize : d.size = sideOf s.work.ver := hsame.1
    exact inv_work hi hb ⟨hver, hminv, hmaxv, hmask, hfirst.1⟩ fun _ => ⟨hsize ▸ hsq.1, hsize ▸ hsq.2⟩
  · cases h
    exact inv_work hi hb ⟨hver, hminv, hmaxv, hmask, by dsimp only; omega⟩ fun _ => hdrawn

/-- What S10 commits is a Symbol (R33). -/
theorem finalSym_wf {w : Work} (hw : w.Wf) (hd : w.GridsDrawn) : (finalSym w).Wf := by
  obtain ⟨hver, -, -, -, hbest⟩ := hw
  obtain ⟨hsize, hsq⟩ := candidate_keepsShape w.ecl w.bestMask (canvasOf w)
  have hm := (hsq hd).1
  rw [hsize] at hm
  exact ⟨hver, rfl, hbest, hm⟩

theorem finalState_inv {s : State} (hi : s.Inv) (hb : s.busy = true) (hs : s.stage = .s10) : (finalState s).Inv :=
  inv_commit hi hb (withCanvas_wf _ hi.work) (finalSym_wf hi.work (hi.drawn hb (.inr (.inr hs))))

/-- Each stage of a command in progress keeps the invariant. -/
theorem advance_inv {s t : State} (hi : s.Inv) (hb : s.busy = true) (h : advance s = .next t) : t.Inv := by
  rw [advance_eq_stageOp] at h
  cases hs : s.stage <;> rw [hs] at h
  case s0 => cases h; exact inv_complete hi hb
  case s1 =>
    obtain h | ⟨i, h⟩ | h | ⟨_, segs, -, -, h⟩ := execS1Segb_cases h <;> cases h
    · exact inv_raise hi _
    · exact inv_raise hi _
    · exact inv_work hi hb hi.work (by simp)
  case s2 => exact execS2Vsel_inv hi hb h
  case s3 => cases h; exact inv_work hi hb hi.work (by simp)
  case s4 =>
    obtain h' | h' | ⟨bb, -, -, h'⟩ := execS4Asm_cases s <;> rw [stageOp, h'] at h <;> cases h
    · exact inv_raise hi _
    · exact inv_raise hi _
    · exact inv_work hi hb hi.work (by simp)
  case s5 => cases h; exact inv_work hi hb hi.work (by simp)
  case s6 => cases h; exact inv_work hi hb hi.work (by simp)
  case s7 => exact execS7Fpat_inv hi hb h
  case s8 => exact execS8Place_inv hi hb hs h
  case s9 => exact execS9Msel_inv hi hb hs h
  case s10 => rw [stageOp, execS10Final_eq] at h; cases h; exact finalState_inv hi hb hs
  case s11 =>
    obtain ⟨b, rfl⟩ | rfl := execS11Getm_cases h
    · exact inv_setResult hi hb b
    · exact inv_raise hi _

theorem runStages_inv (n : Nat) {s t : State} (hi : s.Inv) (h : runStages n s = .next t) : t.Inv :=
  runStages_keeps (P := State.Inv) (fun _ _ hi hb h => advance_inv hi hb h) n hi h

/-! ### The commands -/

/-- A command starts with no error. -/
theorem inv_startCommand {s : State} (h : s.Inv) (hs : s.stage = .s0) (w : Word) : (startCommand w s).Inv :=
  ⟨h.cfg, h.text, h.segtab, h.segdata, h.sym, h.work, fun hb => by simp at hb, fun _ => rfl,
    fun _ hd => by simp [hs] at hd⟩

theorem inv_startEncode {s : State} (h : s.Inv) (hs : s.stage = .s0) (w : Word) : (startEncode w s).Inv := by
  have := inv_startCommand h hs w
  exact ⟨this.cfg, this.text, this.segtab, this.segdata, fun hv => by simp [startEncode, invalidate] at hv,
    reset_work_wf, this.idle, this.running, fun _ hd => by simp [startEncode, hs] at hd⟩

theorem enctxtStart_inv {s : State} (h : s.Inv) (hs : s.stage = .s0) (ecc : Level) : (enctxtStart ecc s).Inv :=
  inv_work (inv_startEncode h hs _) rfl reset_work_wf (by simp)

theorem getmodStart_inv {s : State} (h : s.Inv) (hs : s.stage = .s0) (x y : Int) : (getmodStart x y s).Inv :=
  inv_work (inv_startCommand h hs _) rfl h.work (by simp)

theorem encsegStart_inv {s : State} (h : s.Inv) (hs : s.stage = .s0) (ecc : Level) {minv maxv : Nat} {mask : Int}
    (boost : Bool) (segs : List Segment) (hv : VersionsInRange minv maxv) (hm : MaskInRange mask) :
    (encsegStart ecc minv maxv mask boost segs s).Inv := by
  obtain ⟨hver, -, -, -, hbest⟩ := reset_work_wf
  exact inv_work (inv_startEncode h hs _) rfl ⟨hver, hv.1, hv.2, hm, hbest⟩ (by simp)

/-- A command that a word can hold keeps the invariant from S0. -/
theorem exec_command_inv {w : Word} {i : Instr} {s t : State} (hi : s.Inv) (hs : s.stage = .s0)
    (hd : decode (.command w) = .ok i) (h : exec i s = .next t) : t.Inv := by
  obtain ⟨ecc, rfl⟩ | ⟨ecc, minv, maxv, mask, boost, rfl⟩ | ⟨x, y, rfl⟩ := decode_command_cases hd <;> rw [exec] at h
  · rw [execEnctxt_eq_runStages] at h
    exact runStages_inv 12 (enctxtStart_inv hi hs ecc) h
  · obtain ⟨c, h'⟩ | ⟨sp, i, h'⟩ | ⟨hv, hm, segs, h'⟩ := execEncseg_cases ecc minv maxv mask boost s <;> rw [h'] at h
    · cases h; exact inv_raise (inv_startEncode hi hs _) c
    · cases h
    · exact runStages_inv 12 (encsegStart_inv hi hs ecc boost segs hv hm) h
  · have hstart := getmodStart_inv hi hs x y
    obtain ⟨b, h'⟩ | h' := execGetmod_cases x y s <;> rw [h'] at h <;> cases h
    · exact inv_complete (inv_setResult hstart rfl b) rfl
    · exact inv_raise hstart _

/-! ### The host's accesses -/

/-- The reset state, in any legal configuration and with any accesses to come, meets the invariant. -/
theorem resetState_inv {c : Cfg} (hc : c.Wf) (rest : List HostAction) (n : Nat) :
    ({ State.reset with cfg := c, pending := rest, epoch := n } : State).Inv := by
  have empty_wf : ∀ {w : Nat} (n : Nat), (⟨[]⟩ : Buffer w).Wf n := fun n =>
    ⟨rfl, fun i v h => by simp [Buffer.read, lookupCell] at h⟩
  exact ⟨hc, empty_wf _, empty_wf _, empty_wf _, fun h => by simp [State.reset, Sym.reset] at h, reset_work_wf,
    fun _ => ⟨rfl, .inl ⟨rfl, rfl⟩⟩, fun h => by simp [State.reset] at h, fun h => by simp [State.reset] at h⟩

/-- What the invariant does not speak of: the length registers and the host's side of the model. -/
theorem inv_hostSide {s : State} (h : s.Inv) (len : BitVec 16) (n : BitVec 8) (acts : List HostAction) (vs : List Word) :
    ({ s with textlen := len, nseg := n, pending := acts, readData := vs } : State).Inv :=
  ⟨h.cfg, h.text, h.segtab, h.segdata, h.sym, h.work, h.idle, h.running, h.drawn⟩

theorem hostStep_inv {act : HostAction} {s t : State} (hi : s.Inv) (hb : s.busy = false ∨ act = .reset)
    (h : hostStep act s = .next t) : t.Inv := by
  cases act with
  | readReg i => cases h; exact inv_hostSide hi _ _ _ _
  | writeReg i v =>
    have hs : s.stage = .s0 := (hi.idle (hb.resolve_right (by simp))).1
    by_cases hi0 : i = 0
    · simp only [hostStep, hi0, if_true, executeCommand] at h
      split at h
      · cases h; exact inv_raise (inv_startCommand hi hs v) _
      · exact exec_command_inv hi hs ‹_› h
    · simp only [hostStep, hi0, if_false] at h
      cases h
      rw [writeReg_frame]
      exact inv_hostSide hi _ _ _ _
  | readElements sp a n =>
    obtain ⟨-, rfl⟩ := elementAccess_next h
    exact inv_hostSide hi _ _ _ _
  | writeText a vs =>
    obtain ⟨ha, rfl⟩ := elementAccess_next h
    exact ⟨hi.cfg, hi.text.writeRun a vs ha, hi.segtab, hi.segdata, hi.sym, hi.work, hi.idle, hi.running, hi.drawn⟩
  | writeSegtab a vs =>
    obtain ⟨ha, rfl⟩ := elementAccess_next h
    exact ⟨hi.cfg, hi.text, hi.segtab.writeRun a vs ha, hi.segdata, hi.sym, hi.work, hi.idle, hi.running, hi.drawn⟩
  | writeSegdata a vs =>
    obtain ⟨ha, rfl⟩ := elementAccess_next h
    exact ⟨hi.cfg, hi.text, hi.segtab, hi.segdata.writeRun a vs ha, hi.sym, hi.work, hi.idle, hi.running, hi.drawn⟩
  | reset => cases h; exact resetState_inv hi.cfg _ _

/-! ### The statements -/

/-- Settles O59, by the cases of a step: a stage of a command in progress, a wait, or an access of the host, whose
commands are runs of stages from a start that meets the invariant. -/
theorem stepKeepsTheInvariant : Obligations.StepKeepsTheInvariant := by
  intro s t hi h
  obtain ⟨hb, -, h'⟩ | ⟨-, -, h'⟩ | ⟨act, rest, -, hact, h'⟩ := step_cases s <;> rw [h'] at h
  · exact advance_inv hi hb h
  · cases h; exact hi
  · exact hostStep_inv (inv_hostSide hi s.textlen s.nseg rest s.readData) hact h

/-- Settles O60, at the default configuration. -/
theorem resetMeetsTheInvariant : Obligations.ResetMeetsTheInvariant :=
  resetState_inv (by decide) [] 0

end Sys2Proof.Machine
end

section
/-! PROOFS. The segments of ENCSEG and the Symbol that the stages S2 to S10 give for a segment list (O46). -/

namespace Sys2Proof.Machine

/-! ### Bits and segments -/

@[simp] theorem bitsMSB_length (v n : Nat) : (bitsMSB v n).length = n := by
  induction n with
  | zero => rfl
  | succ n ih => simp [bitsMSB, ih]

theorem bitsMSB_getElem? (v : Nat) {n k : Nat} (h : k < n) : (bitsMSB v n)[k]? = some (v.testBit (n - 1 - k)) := by
  induction n generalizing k with
  | zero => omega
  | succ n ih =>
    cases k with
    | zero => simp [bitsMSB]
    | succ k => simp [bitsMSB, ih (k := k) (by omega), show n - 1 - k = n - (k + 1) by omega]

@[simp] theorem byteBits_length (b : Byte) : (byteBits b).length = 8 := bitsMSB_length _ _

theorem bytesBits_cons (b : Byte) (bs : List Byte) : bytesBits (b :: bs) = byteBits b ++ bytesBits bs := rfl

@[simp] theorem bytesBits_length (bs : List Byte) : (bytesBits bs).length = 8 * bs.length := by
  induction bs with
  | nil => rfl
  | cons b bs ih => rw [bytesBits_cons, List.length_append, ih, byteBits_length, List.length_cons]; omega

/-- Bit k of a byte list, most significant first (R64). -/
theorem bytesBits_getElem? (bs : List Byte) (k : Nat) :
    (bytesBits bs)[k]? = bs[k / 8]?.map fun b => b.getLsbD (7 - k % 8) := by
  induction bs generalizing k with
  | nil => rfl
  | cons b bs ih =>
    rw [bytesBits_cons]
    by_cases hk : k < 8
    · rw [List.getElem?_append_left (by simpa using hk), byteBits, bitsMSB_getElem? _ hk, Nat.div_eq_of_lt hk,
        Nat.mod_eq_of_lt hk]
      simp [BitVec.testBit_toNat]
    · rw [List.getElem?_append_right (by simpa using hk), ih, byteBits_length, show k / 8 = (k - 8) / 8 + 1 by omega,
        show k % 8 = (k - 8) % 8 by omega]
      rfl

theorem segBitLen_eq (e : Word) : segBitLen e = e.toNat / 2 ^ 16 := by
  have := e.isLt
  simp only [segBitLen, BitVec.extractLsb'_toNat, Nat.shiftRight_eq_div_pow]
  omega

theorem segNumChars_eq (e : Word) : segNumChars e = e.toNat % 2 ^ 16 := by
  simp [segNumChars, BitVec.extractLsb'_toNat]

theorem totalBitLen_eq (tab : List Word) : totalBitLen tab = (tab.map fun e => e.toNat / 2 ^ 16).sum :=
  congrArg List.sum (List.map_congr_left fun e _ => segBitLen_eq e)

@[simp] theorem cutSegments_length (tab : List Word) (bits : List Bool) :
    (cutSegments tab bits).length = tab.length := by
  induction tab generalizing bits with
  | nil => rfl
  | cons e es ih => simp [cutSegments, ih]

/-- Segment i is cut at the sum of the lengths before it (R32). -/
theorem cutSegments_getElem? (tab : List Word) (bits : List Bool) (i : Nat) :
    (cutSegments tab bits)[i]? = tab[i]?.map fun e =>
      { numChars := segNumChars e, bits := (bits.drop (totalBitLen (tab.take i))).take (segBitLen e) } := by
  induction tab generalizing bits i with
  | nil => rfl
  | cons e es ih =>
    cases i with
    | zero => simp [cutSegments, totalBitLen]
    | succ i => simp [cutSegments, ih, totalBitLen, List.drop_drop]

/-- A segment ends within the sum of all lengths. -/
theorem totalBitLen_take_add_le {tab : List Word} {i : Nat} {e : Word} (h : tab[i]? = some e) :
    totalBitLen (tab.take i) + segBitLen e ≤ totalBitLen tab := by
  obtain ⟨hi, rfl⟩ := List.getElem?_eq_some_iff.mp h
  have hsplit : totalBitLen tab = totalBitLen (tab.take i) + totalBitLen (tab.drop i) := by
    rw [totalBitLen, totalBitLen, totalBitLen, ← List.sum_append, ← List.map_append, List.take_append_drop]
  rw [hsplit, List.drop_eq_getElem_cons hi]
  simp only [totalBitLen, List.map_cons, List.sum_cons]
  omega

/-! ### The bit stream -/

theorem countFieldWidth_le (v : Nat) : countFieldWidth v ≤ 16 := by
  unfold countFieldWidth
  split <;> omega

theorem segmentBits_length (v : Nat) (g : Segment) :
    (segmentBits v g).length = 4 + countFieldWidth v + g.bits.length := by
  simp [segmentBits, Nat.add_assoc]

theorem appendSegment_eq {v : Nat} (bb : List Bool) {g : Segment} (h : g.numChars < 2 ^ countFieldWidth v) :
    appendSegment v bb g = some (bb ++ segmentBits v g) := by
  have hw := countFieldWidth_le v
  have hcount : countFieldWidth v ≤ 31 ∧ g.numChars < 2 ^ countFieldWidth v := ⟨by omega, h⟩
  simp [appendSegment, appendBits, hcount, segmentBits]

/-- S4 appends exactly the data stream, where the counts fit (R161, R162). -/
theorem appendSegments_eq {v : Nat} {segs : List Segment} (h : CountsFit v segs) (bb : List Bool) :
    appendSegments v bb segs = some (bb ++ dataStream v segs) := by
  induction segs generalizing bb with
  | nil => simp [appendSegments, dataStream]
  | cons g segs ih =>
    have hg := h g List.mem_cons_self
    have hrest : CountsFit v segs := fun x hx => h x (List.mem_cons_of_mem g hx)
    simp [appendSegments, appendSegment_eq bb hg, ih hrest, dataStream]

/-- Where the counts fit, TotalBits is the length of the data stream (R146). -/
theorem totalBits_eq {v : Nat} {segs : List Segment} (h : CountsFit v segs) :
    totalBits segs v = some (dataStream v segs).length := by
  induction segs with
  | nil => rfl
  | cons g segs ih =>
    have hg := h g List.mem_cons_self
    have hrest : CountsFit v segs := fun x hx => h x (List.mem_cons_of_mem g hx)
    simp [totalBits, Nat.not_le.mpr hg, ih hrest, dataStream, segmentBits_length]

/-- Where a count does not fit, TotalBits has no value (R146). -/
theorem totalBits_eq_none {v : Nat} {segs : List Segment} (h : ¬CountsFit v segs) : totalBits segs v = none := by
  induction segs with
  | nil => exact absurd (fun g hg => absurd hg List.not_mem_nil) h
  | cons g segs ih =>
    by_cases hg : g.numChars < 2 ^ countFieldWidth v
    · have hrest : ¬CountsFit v segs := fun hr => h fun x hx => by
        obtain rfl | hx := List.mem_cons.mp hx
        · exact hg
        · exact hr x hx
      simp [totalBits, Nat.not_le.mpr hg, ih hrest]
    · simp [totalBits, Nat.le_of_not_lt hg]

/-- S2's search finds the first version that fits (R147). -/
theorem firstFit_eq {segs : List Segment} {l : Level} {minv maxv v : Nat} (hlo : minv ≤ v) (hhi : v ≤ maxv)
    (hfit : Fits segs l v) (hfirst : ∀ u, minv ≤ u → u < v → ¬Fits segs l u) :
    firstFit segs l minv maxv = some (v, (dataStream v segs).length) := by
  have hsplit : List.range' minv (maxv + 1 - minv)
      = List.range' minv (v - minv) ++ v :: List.range' (v + 1) (maxv - v) := by
    rw [show maxv + 1 - minv = (v - minv) + (maxv - v + 1) by omega, ← List.range'_append_1,
      show minv + (v - minv) = v by omega, List.range'_succ]
  have hbefore : ∀ u ∈ List.range' minv (v - minv), ¬Fits segs l u := fun u hu => by
    rw [List.mem_range'_1] at hu
    exact hfirst u hu.1 (by omega)
  rw [firstFit, hsplit, List.findSome?_append, List.findSome?_eq_none_iff.mpr fun u hu => ?_, Option.none_or,
    List.findSome?_cons, totalBits_eq hfit.1]
  · simp [hfit.2]
  · by_cases hc : CountsFit u segs
    · have hlong : ¬(dataStream u segs).length ≤ dataCapacityBits u l := fun h => hbefore u hu ⟨hc, h⟩
      simp [totalBits_eq hc, hlong]
    · simp [totalBits_eq_none hc]

/-- S3 takes the highest level that holds the bits, where the requested one does (R148). -/
theorem boostLevel_isFinal {v used : Nat} {ecc : Level} (h : used ≤ dataCapacityBits v ecc) :
    IsFinalLevel v used ecc true (boostLevel v used ecc) := by
  have of_highest : ∀ l, used ≤ dataCapacityBits v l →
      (∀ m, used ≤ dataCapacityBits v m → m.ord.toNat ≤ l.ord.toNat) → IsFinalLevel v used ecc true l :=
    fun l hl hmax => ⟨hl, hmax ecc h, hmax⟩
  simp only [boostLevel, List.foldl_cons, List.foldl_nil]
  split
  · rename_i hh
    exact of_highest _ hh fun m _ => by cases m <;> decide
  rename_i hh
  split
  · rename_i hq
    exact of_highest _ hq fun m hm => by
      cases m with
      | high => exact absurd hm hh
      | low | medium | quartile => decide
  rename_i hq
  split
  · rename_i hm'
    exact of_highest _ hm' fun m hm => by
      cases m with
      | high => exact absurd hm hh
      | quartile => exact absurd hm hq
      | low | medium => decide
  · rename_i hm'
    exact of_highest _ h fun m hm => by
      cases m with
      | high => exact absurd hm hh
      | quartile => exact absurd hm hq
      | medium => exact absurd hm hm'
      | low => exact Nat.zero_le _

theorem finalLevel_isFinal {w : Work} (h : w.used ≤ dataCapacityBits w.ver w.ecl) :
    IsFinalLevel w.ver w.used w.ecl w.boosten (finalLevel w) := by
  unfold finalLevel
  cases hb : w.boosten
  · rfl
  · exact boostLevel_isFinal h

/-- A final level holds the bits. -/
theorem IsFinalLevel.fits {v used : Nat} {ecc l : Level} {boost : Bool} (h : IsFinalLevel v used ecc boost l)
    (hfit : used ≤ dataCapacityBits v ecc) : used ≤ dataCapacityBits v l := by
  cases boost
  · exact (show l = ecc from h) ▸ hfit
  · exact h.1

theorem padCodewords_length (n : Nat) (p : Byte) : (padCodewords n p).length = n := by
  induction n generalizing p with
  | zero => rfl
  | succ n ih => simp [padCodewords, ih]

/-- The stream is padded to exactly a capacity in whole bytes (R164 to R166). -/
theorem padStream_length {d : Nat} {bb : List Bool} (h : bb.length ≤ 8 * d) : (padStream (8 * d) bb).length = 8 * d := by
  simp only [padStream, addPadCodewords, addBitPadding, addTerminator, List.length_append, List.length_replicate,
    bytesBits_length, padCodewords_length]
  omega

/-! ### The stages on a segment list that fits -/

/-- The working state after S2 has taken a version (R147). -/
def selectedWork (w : Work) (v : Nat) : Work :=
  { w with ver := v, used := (dataStream v w.segs).length, ecl := w.reqEcl }

/-- The working state before S9: the segments encoded at VER and ECL, and placed (R102 to R104). -/
def encodedWork (w : Work) : Work :=
  { w with
    bb := padStream (dataCapacityBits w.ver w.ecl) (dataStream w.ver w.segs)
    dcw := streamCodewords w.ver w.ecl w.segs
    blk := makeBlocks w.ver w.ecl (streamCodewords w.ver w.ecl w.segs)
    acw := finalCodewords w.ver w.ecl w.segs
    m := (placedCanvas w.ver w.ecl w.segs).m
    f := (placedCanvas w.ver w.ecl w.segs).f }

theorem canvasOf_encodedWork (w : Work) : canvasOf (encodedWork w) = placedCanvas w.ver w.ecl w.segs := by
  have hsize := (placedCanvas_shape w.ver w.ecl w.segs).1
  rw [canvasOf, encodedWork, ← hsize]

theorem encodedWork_drawn (w : Work) : (encodedWork w).GridsDrawn := by
  rw [← canvasOf_square_iff, canvasOf_encodedWork]
  exact (placedCanvas_shape w.ver w.ecl w.segs).2

/-- A stage that goes on, before the next. -/
theorem andThen_worked {p : Stage} {w : Work} {s : State} (f : State → Out) (hb : s.busy = true) :
    andThen (.next (setStage p (setWork w s))) f = f (setStage p (setWork w s)) := andThen_next_busy f hb

/-- A stage's working state is its predecessor's no longer. -/
theorem worked_worked (p q : Stage) (u w : Work) (s : State) :
    setStage q (setWork u (setStage p (setWork w s))) = setStage q (setWork u s) := rfl

/-- S4 on a stream that fits packs the data codewords (R167, R168). -/
theorem execS4Asm_eq {w : Work} (p : Stage) (s : State) (hc : CountsFit w.ver w.segs)
    (hfit : (dataStream w.ver w.segs).length ≤ dataCapacityBits w.ver w.ecl) :
    execS4Asm (setStage p (setWork w s)) = .next (setStage .s5 (setWork { w with
      bb := padStream (dataCapacityBits w.ver w.ecl) (dataStream w.ver w.segs)
      dcw := streamCodewords w.ver w.ecl w.segs } s)) := by
  have hlen : (padStream (dataCapacityBits w.ver w.ecl) (dataStream w.ver w.segs)).length / 8
      = dataCodewords w.ver w.ecl := by
    rw [dataCapacityBits] at hfit ⊢
    rw [padStream_length hfit, Nat.mul_div_cancel_left _ (by decide)]
  simp only [execS4Asm, setStage_work, setWork_work, appendSegments_eq hc, List.nil_append, Nat.not_lt.mpr hfit,
    if_false, hlen, worked_worked, streamCodewords]

/-- Stages S4 to S8 on segments that fit VER at ECL: the segments encoded and placed (R102 to R104). -/
theorem stagesS4toS8_eq {w : Work} {s : State} (hb : s.busy = true) (hc : CountsFit w.ver w.segs)
    (hfit : (dataStream w.ver w.segs).length ≤ dataCapacityBits w.ver w.ecl) :
    andThen (andThen (andThen (andThen (execS4Asm (setStage .s4 (setWork w s))) execS5Rsenc) execS6Ilv) execS7Fpat)
        execS8Place
      = .next (setStage .s9 (setWork (encodedWork w) s)) := by
  have h5 (u : Work) : execS5Rsenc (setStage .s5 (setWork u s))
      = .next (setStage .s6 (setWork { u with blk := makeBlocks u.ver u.ecl u.dcw } s)) := rfl
  have h6 (u : Work) : execS6Ilv (setStage .s6 (setWork u s))
      = .next (setStage .s7 (setWork { u with acw := interleave u.ver u.ecl u.blk } s)) := rfl
  have h7 (u : Work) : execS7Fpat (setStage .s7 (setWork u s))
      = .next (setStage .s8 (setWork (withCanvas (functionPatterns u.ver) u) s)) := rfl
  have h8 (u : Work) : execS8Place (setStage .s8 (setWork u s))
      = .next (setStage .s9 (setWork
          { u with m := placeBits (zigzag (sideOf u.ver) u.f) (bytesBits u.acw) u.m } s)) := rfl
  have go (p : Stage) (u : Work) (f : State → Out) := andThen_worked (p := p) (w := u) f hb
  simp only [execS4Asm_eq .s4 s hc hfit, go, h5, h6, h7, h8]
  simp only [encodedWork, placedCanvas, finalCodewords, withCanvas, (functionPatterns_shape w.ver).1]

/-- Stages S2 to S8, S2 having found a version that the segments fit at the final level. -/
theorem runFromS2_of_vsel {w : Work} {s : State} (hb : s.busy = true)
    (h2 : execS2Vsel s = .next (setStage .s3 (setWork w s))) (hc : CountsFit w.ver w.segs)
    (hfit : (dataStream w.ver w.segs).length ≤ dataCapacityBits w.ver (finalLevel w)) :
    runFromS2 s = andThen (execS9Msel (setStage .s9 (setWork (encodedWork { w with ecl := finalLevel w }) s)))
      execS10Final := by
  have go (p : Stage) (u : Work) (f : State → Out) := andThen_worked (p := p) (w := u) f hb
  have h3 : execS3Boost (setStage .s3 (setWork w s))
      = .next (setStage .s4 (setWork { w with ecl := finalLevel w } s)) := rfl
  have h4to8 := stagesS4toS8_eq (w := { w with ecl := finalLevel w }) hb hc hfit
  simp only [runFromS2, h2, go, h3, h4to8]

/-- Stages S2 to S8 on segments whose first fitting version is `v`: the segments encoded and placed at `v`, at a final
level (R147, R148). -/
theorem runFromS2_eq {s : State} {v : Nat} (hb : s.busy = true) (hlo : s.work.minv ≤ v) (hhi : v ≤ s.work.maxv)
    (hfit : Fits s.work.segs s.work.reqEcl v)
    (hfirst : ∀ u, s.work.minv ≤ u → u < v → ¬Fits s.work.segs s.work.reqEcl u) :
    ∃ u : Work, u.ver = v ∧ u.segs = s.work.segs ∧ u.fmask = s.work.fmask
      ∧ IsFinalLevel v (dataStream v s.work.segs).length s.work.reqEcl s.work.boosten u.ecl
      ∧ runFromS2 s = andThen (execS9Msel (setStage .s9 (setWork (encodedWork u) s))) execS10Final := by
  have h2 : execS2Vsel s = .next (setStage .s3 (setWork (selectedWork s.work v) s)) := by
    rw [execS2Vsel, firstFit_eq hlo hhi hfit hfirst]
    rfl
  have hfinal := finalLevel_isFinal (w := selectedWork s.work v) hfit.2
  exact ⟨{ selectedWork s.work v with ecl := finalLevel (selectedWork s.work v) }, rfl, rfl, rfl, hfinal,
    runFromS2_of_vsel hb h2 hfit.1 (hfinal.fits hfit.2)⟩

/-- S9 on drawn grids chooses the mask, and leaves the grids such that S10 draws that mask's candidate (R235, R237). -/
theorem execS9Msel_choice {u : Work} (p : Stage) (s : State) (hd : u.GridsDrawn) (hm : -1 ≤ u.fmask) :
    ∃ w, execS9Msel (setStage p (setWork u s)) = .next (setStage .s10 (setWork w s))
      ∧ w.ver = u.ver ∧ w.ecl = u.ecl ∧ IsMaskChoice s.cfg u.fmask u.ecl (canvasOf u) w.bestMask
      ∧ finalCanvas w = candidate u.ecl (canvasOf u) w.bestMask := by
  have hcases := execS9Msel_cases (setStage p (setWork u s))
  simp only [setStage_work, setWork_work, setStage_cfg, setWork_cfg, worked_worked] at hcases
  obtain ⟨hauto, h⟩ | ⟨hforced, h⟩ := hcases
  · obtain ⟨d, k, hsel, hfirst, hsq, hsame⟩ := autoSelect_spec s.cfg hd
    rw [hsel] at h
    refine ⟨_, h, rfl, rfl, ?_, ?_⟩
    · rw [IsMaskChoice, if_pos hauto]
      exact hfirst
    · have hsize : d.size = sideOf u.ver := hsame.1
      have hd' : canvasOf (withCanvas d
          { u with bestMask := k, bestPen := candidatePenalty s.cfg u.ecl (canvasOf u) k }) = d := by
        rw [canvasOf, withCanvas, ← hsize]
      rw [finalCanvas, hd']
      exact candidate_congr u.ecl k ((canvasOf_square_iff _).mpr hd) hsq hsame
  · refine ⟨_, h, rfl, rfl, ?_, rfl⟩
    rw [IsMaskChoice, if_neg hforced]
    exact Int.toNat_of_nonneg (by omega)

/-- Stages S2 to S10 on segments that fit some version commit the Symbol that the rules give for them. -/
theorem runFromS2_symbol {s : State} (hb : s.busy = true) (hm : -1 ≤ s.work.fmask)
    (hfit : ∃ v, s.work.minv ≤ v ∧ v ≤ s.work.maxv ∧ Fits s.work.segs s.work.reqEcl v) :
    ∃ w y, runFromS2 s = .next (setStage .s0 (commit y (setWork w s)))
      ∧ IsSymbolOf s.cfg s.work.segs s.work.reqEcl s.work.minv s.work.maxv s.work.fmask s.work.boosten y := by
  classical
  obtain ⟨hlo, hhi, hv⟩ := Nat.find_spec hfit
  have hfirst : ∀ u, s.work.minv ≤ u → u < Nat.find hfit → ¬Fits s.work.segs s.work.reqEcl u :=
    fun u hu hlt h => Nat.find_min hfit hlt ⟨hu, by omega, h⟩
  generalize Nat.find hfit = v at hlo hhi hv hfirst
  obtain ⟨u, rfl, hsegs, hmask, hl, hrun⟩ := runFromS2_eq hb hlo hhi hv hfirst
  obtain ⟨w, h9, hver, hecl, hchoice, hfinal⟩ := execS9Msel_choice .s9 s (encodedWork_drawn u) (hmask ▸ hm)
  rw [canvasOf_encodedWork, hsegs] at hchoice hfinal
  refine ⟨withCanvas (finalCanvas w) w, finalSym w, ?_, u.ver, u.ecl, w.bestMask, ⟨hlo, hhi, hv, hfirst⟩, hl,
    hmask ▸ hchoice, ?_⟩
  · rw [hrun, h9, andThen_worked _ hb, execS10Final_eq, finalState, setStage_work, setWork_work]
    rfl
  · rw [finalSym, hfinal, hver, hecl]
    rfl

/-! ### ENCSEG -/

/-- ENCSEG hands on the segments that written elements describe (R31, R32, R262). -/
theorem loadSegments_eq {s : State} {tab : List Word} {bytes : List Byte} (k : List Segment → Out)
    (hn : s.nseg.toNat = tab.length) (hmax : tab.length ≤ s.cfg.segMax) (htab : s.segtab.Holds 0 tab)
    (htotal : totalBitLen tab ≤ 8 * s.cfg.segdataBytes) (hlen : bytes.length = (totalBitLen tab + 7) / 8)
    (hbytes : s.segdata.Holds 0 bytes) : loadSegments s k = k (cutSegments tab (bytesBits bytes)) := by
  have hreadTab : s.segtab.readRun 0 tab.length = .ok tab := (readRun_ok_iff ..).mpr ⟨rfl, htab⟩
  have hreadBytes : s.segdata.readRun 0 ((totalBitLen tab + 7) / 8) = .ok bytes := (readRun_ok_iff ..).mpr ⟨hlen, hbytes⟩
  simp only [loadSegments, hn, Nat.not_lt.mpr hmax, Nat.not_lt.mpr htotal, if_false, hreadTab, hreadBytes]

/-- Segment i of a SEGTAB list, in the numbers of R31 and R32. -/
theorem cutSegments_segment {tab : List Word} {bytes : List Byte} (h : totalBitLen tab ≤ 8 * bytes.length) {i : Nat}
    {e : Word} (he : tab[i]? = some e) :
    ∃ g, (cutSegments tab (bytesBits bytes))[i]? = some g ∧ g.numChars = e.toNat % 2 ^ 16
      ∧ g.bits.length = e.toNat / 2 ^ 16
      ∧ ∀ off k, off = ((tab.take i).map fun e => e.toNat / 2 ^ 16).sum → k < g.bits.length →
          g.bits[k]? = bytes[(off + k) / 8]?.map fun b => b.getLsbD (7 - (off + k) % 8) := by
  have hend := totalBitLen_take_add_le he
  have hlength : (((bytesBits bytes).drop (totalBitLen (tab.take i))).take (segBitLen e)).length = segBitLen e := by
    simp only [List.length_take, List.length_drop, bytesBits_length]
    omega
  refine ⟨_, by rw [cutSegments_getElem?, he]; rfl, segNumChars_eq e, hlength.trans (segBitLen_eq e), ?_⟩
  rintro off k rfl hk
  rw [hlength] at hk
  rw [List.getElem?_take_of_lt hk, List.getElem?_drop, bytesBits_getElem?, totalBitLen_eq]

/-- Settles O46: the segments by their place in the bit sequence; the Symbol since S2 to S10 compute the rules' terms
one after another, the mask search on the grids in place as on copies. -/
theorem encsegEncodesTheSegments : Obligations.EncsegEncodesTheSegments := by
  refine ⟨fun tab bytes => ⟨totalBitLen_eq tab, cutSegments_length _ _, fun h i e => cutSegments_segment h⟩, ?_⟩
  intro s ecc minv maxv mask boost tab bytes hv hm hn hmax htab htotal hlen hbytes hfit
  have hrun : exec (.encseg ecc minv maxv mask boost) s = finish (runFromS2 (encsegStart ecc minv maxv mask boost
      (cutSegments tab (bytesBits bytes)) s)) :=
    execEncseg_eq_finish hv hm fun k => loadSegments_eq k hn hmax htab htotal hlen hbytes
  obtain ⟨w, y, h, hy⟩ := runFromS2_symbol
    (s := encsegStart ecc minv maxv mask boost (cutSegments tab (bytesBits bytes)) s) rfl hm.1 hfit
  rw [h, finish_next_busy rfl] at hrun
  refine ⟨_, hrun, ?_, ?_, hy, ?_, ?_⟩ <;> simp [EndsWell, SameHostSide, encsegStart, startEncode]

end Sys2Proof.Machine
end

section
/-! PROOFS. The input buffers and the host's side (spec/20_memory.md R60, R61, R62, R75): what a host access does, which
reads are refused, and that no operation writes there (O4, O5, O18, O55). -/

namespace Sys2Proof.Machine

/-! ### The host's accesses -/

/-- While QRSE is idle, a step is the host's next access. -/
theorem step_of_pending {s : State} {act : HostAction} {rest : List HostAction} (hb : s.busy = false)
    (hp : s.pending = act :: rest) : step s = hostStep act { s with pending := rest } := by
  simp [step, hb, nextAccess, hp]

/-- An access to elements that exist goes on (R61). -/
theorem elementAccess_of_le {sp : Space} {a n : Nat} {s : State} (h : a + n ≤ s.cfg.elements sp) (t : State) :
    elementAccess sp a n s t = .next t := if_pos h

/-- A run of writes stores each value at its index and leaves every element outside the run (R62). -/
theorem writeRun_writtenRun {w : Nat} (b : Buffer w) (a : Nat) (vs : List (BitVec w)) :
    b.WrittenRun (b.writeRun a vs) a vs := by
  induction vs generalizing a b with
  | nil => exact ⟨fun k hk => absurd hk (Nat.not_lt_zero k), fun _ _ => rfl⟩
  | cons v vs ih =>
    obtain ⟨hholds, hframe⟩ := ih (b.write a v) (a + 1)
    refine ⟨fun k hk => ?_, fun i hi => ?_⟩
    · cases k with
      | zero => exact (hframe a (.inl (Nat.lt_succ_self a))).trans (read_write_same b a v)
      | succ k =>
        have hread := hholds k (Nat.lt_of_succ_lt_succ hk)
        rw [Nat.add_right_comm] at hread
        exact hread
    · rw [List.length_cons] at hi
      exact (hframe i (by omega)).trans (read_write_other b v (by omega))

/-- The host reads a written element as it was written, in the low bits of a word (R62). -/
theorem hostElement_of_read {w : Nat} {b : Buffer w} {i : Nat} {v : BitVec w} (h : b.read i = some v) (epoch : Nat)
    (sp : Space) : hostElement epoch sp b i = v.setWidth 32 := by
  simp [hostElement, h]

/-- Settles O4, by what a run of writes stores, once for the three buffers. -/
theorem hostWriteStoresTheRun : Obligations.HostWriteStoresTheRun := by
  refine ⟨?_, ?_, ?_⟩ <;>
  · intro s a vs rest hb hp ha
    exact ⟨_, (step_of_pending hb hp).trans (elementAccess_of_le ha _), writeRun_writtenRun _ a vs⟩

/-- Settles O5: the data returned is the list of the elements as the host reads them. -/
theorem hostReadsReturnDataAndChangeNothing : Obligations.HostReadsReturnDataAndChangeNothing := by
  refine ⟨fun s i rest hb hp => ?_, fun s sp a n rest hb hp ha => ?_⟩
  · rw [step_of_pending hb hp, hostStep, readReg_pending, returnData]
  · refine ⟨_, (step_of_pending hb hp).trans (elementAccess_of_le ha _), by simp, fun k hk => ?_⟩
    rw [List.getElem?_map, List.getElem?_range' hk, Nat.one_mul, Option.map_some]
    refine ⟨?_, ?_, ?_⟩ <;> rintro v rfl h
    · exact congrArg some (hostElement_of_read h _ _)
    · exact congrArg some ((hostElement_of_read h _ _).trans (BitVec.setWidth_eq v))
    · exact congrArg some (hostElement_of_read h _ _)

/-! ### Reads of elements never written -/

/-- A run of reads from index 0 stops at the first element that was never written. -/
theorem readRun_of_first_unwritten {w : Nat} {b : Buffer w} {n i : Nat} (hi : i < n) (hnone : b.read i = none)
    (hbefore : ∀ j, j < i → ∃ v, b.read j = some v) : b.readRun 0 n = .error i :=
  (readRun_error_iff b 0 n i).mpr
    ⟨⟨Nat.zero_le i, by omega⟩, hnone, fun j _ hj => Option.ne_none_iff_exists'.mpr (hbefore j hj)⟩

/-- S1 is refused at the element of TEXT where its read stops (R75). -/
theorem execS1Segb_refused {s : State} {i : Nat} (hlen : s.textlen.toNat ≤ s.cfg.textMax)
    (hread : s.text.readRun 0 s.textlen.toNat = .error i) :
    execS1Segb s = .refused (.unwrittenElement .text i) := by
  simp [execS1Segb, Nat.not_lt.mpr hlen, hread]

/-- ENCTXT answers S1's refusal: its start leaves TEXT, TEXTLEN and the configuration. -/
theorem execEnctxt_refused {s : State} {i : Nat} (ecc : Level) (hlen : s.textlen.toNat ≤ s.cfg.textMax)
    (hread : s.text.readRun 0 s.textlen.toNat = .error i) :
    execEnctxt ecc s = .refused (.unwrittenElement .text i) := by
  have h1 : execS1Segb (enctxtStart ecc s) = .refused (.unwrittenElement .text i) := execS1Segb_refused hlen hread
  rw [enctxtStart] at h1
  rw [execEnctxt, runEncTxt, h1]
  rfl

/-- ENCSEG's load is refused at the element of SEGTAB where its read stops (R75). -/
theorem loadSegments_refused_segtab {s : State} {i : Nat} (hn : s.nseg.toNat ≤ s.cfg.segMax)
    (hread : s.segtab.readRun 0 s.nseg.toNat = .error i) (k : List Segment → Out) :
    loadSegments s k = .refused (.unwrittenElement .segtab i) := by
  simp [loadSegments, Nat.not_lt.mpr hn, hread]

/-- ENCSEG's load, SEGTAB read and its lengths in range, is refused at the element of SEGDATA where its read stops
(R75). -/
theorem loadSegments_refused_segdata {s : State} {tab : List Word} {i : Nat} (hn : s.nseg.toNat ≤ s.cfg.segMax)
    (htab : s.segtab.readRun 0 s.nseg.toNat = .ok tab) (htotal : totalBitLen tab ≤ 8 * s.cfg.segdataBytes)
    (hread : s.segdata.readRun 0 ((totalBitLen tab + 7) / 8) = .error i) (k : List Segment → Out) :
    loadSegments s k = .refused (.unwrittenElement .segdata i) := by
  simp [loadSegments, Nat.not_lt.mpr hn, htab, Nat.not_lt.mpr htotal, hread]

/-- ENCSEG on operands in range answers a refusal of its load. -/
theorem execEncseg_refused {ecc : Level} {minv maxv : Nat} {mask : Int} {boost : Bool} {s : State} {r : Refusal}
    (hv : VersionsInRange minv maxv) (hm : MaskInRange mask)
    (hload : ∀ k, loadSegments (startEncode (encodeEncseg ecc minv maxv mask boost) s) k = .refused r) :
    execEncseg ecc minv maxv mask boost s = .refused r := by
  rw [execEncseg, runEncSeg, if_neg (not_not.mpr hv), if_neg (not_not.mpr hm), hload]
  rfl

/-- Settles O18: a read of a buffer stops at its first unwritten element, and the commands' starts leave the buffers. -/
theorem unwrittenElementsAreRefused : Obligations.UnwrittenElementsAreRefused := by
  refine ⟨fun s i hlen hi hnone hbefore => ?_, fun s ecc minv maxv mask boost hv hm hn => ⟨?_, ?_⟩⟩
  · have hread := readRun_of_first_unwritten hi hnone hbefore
    exact ⟨execS1Segb_refused hlen hread, fun ecc => execEnctxt_refused ecc hlen hread⟩
  · intro i hi hnone hbefore
    exact execEncseg_refused hv hm (loadSegments_refused_segtab hn (readRun_of_first_unwritten hi hnone hbefore))
  · intro tab hlen htab htotal i hi hnone hbefore
    rw [← totalBitLen_eq] at htotal hi
    have hreadTab : s.segtab.readRun 0 s.nseg.toNat = .ok tab := (readRun_ok_iff ..).mpr ⟨hlen.symm, htab⟩
    exact execEncseg_refused hv hm
      (loadSegments_refused_segdata hn hreadTab htotal (readRun_of_first_unwritten hi hnone hbefore))

/-! ### The host's side -/

/-- A state that differs in other fields only has the same host side by definition: this is the proof for a raise, a
completion and the writes of STAGE, the working state and RESULT too. -/
theorem SameHostSide.refl (s : State) : SameHostSide s s := ⟨rfl, rfl, rfl, rfl, rfl, rfl, rfl, rfl, rfl⟩

theorem SameHostSide.trans {s t u : State} (hst : SameHostSide s t) (htu : SameHostSide t u) : SameHostSide s u := by
  obtain ⟨h1, h2, h3, h4, h5, h6, h7, h8, h9⟩ := hst
  obtain ⟨g1, g2, g3, g4, g5, g6, g7, g8, g9⟩ := htu
  exact ⟨g1.trans h1, g2.trans h2, g3.trans h3, g4.trans h4, g5.trans h5, g6.trans h6, g7.trans h7, g8.trans h8,
    g9.trans h9⟩

theorem WorkStep.sameHostSide {p : Stage} {s t : State} (h : WorkStep p s t) : SameHostSide s t := by
  cases h with
  | raised c => exact .refl s
  | worked w => exact .refl s

theorem finalState_sameHostSide (s : State) : SameHostSide s (finalState s) := by
  simp [SameHostSide, finalState]

theorem execS11Getm_sameHostSide {s t : State} (h : execS11Getm s = .next t) : SameHostSide s t := by
  obtain ⟨b, rfl⟩ | rfl := execS11Getm_cases h
  · exact .refl s
  · exact .refl s

/-- Each stage of a command in progress leaves the host's side. -/
theorem advance_sameHostSide {s t : State} (h : advance s = .next t) : SameHostSide s t := by
  obtain ⟨-, rfl⟩ | ⟨p, -, h⟩ | ⟨-, rfl⟩ | ⟨-, ⟨b, rfl⟩ | rfl⟩ := advance_cases h
  · exact .refl s
  · exact h.sameHostSide
  · exact finalState_sameHostSide s
  · exact .refl s
  · exact .refl s

theorem runStages_sameHostSide (n : Nat) {s t : State} (h : runStages n s = .next t) : SameHostSide s t :=
  runStages_keeps (P := SameHostSide s) (fun _ _ hs _ h => hs.trans (advance_sameHostSide h)) n (.refl s) h

theorem execEncseg_sameHostSide {ecc : Level} {minv maxv : Nat} {mask : Int} {boost : Bool} {s t : State}
    (h : execEncseg ecc minv maxv mask boost s = .next t) : SameHostSide s t := by
  obtain ⟨c, h'⟩ | ⟨sp, i, h'⟩ | ⟨-, -, segs, h'⟩ := execEncseg_cases ecc minv maxv mask boost s <;> rw [h'] at h
  · cases h; exact .refl s
  · cases h
  · exact runStages_sameHostSide 12 (s := encsegStart ecc minv maxv mask boost segs s) h

theorem execGetmod_sameHostSide {x y : Int} {s t : State} (h : execGetmod x y s = .next t) : SameHostSide s t := by
  obtain ⟨b, h'⟩ | h' := execGetmod_cases x y s <;> rw [h'] at h <;> cases h
  · exact .refl s
  · exact .refl s

/-- Settles O55: an operation is a work step, one of the two stages that write outside the working state, or a command,
whose stages each leave the host's side. -/
theorem operationsNeverWriteTheHostsSide : Obligations.OperationsNeverWriteTheHostsSide := by
  intro i s t h
  obtain ⟨p, hw⟩ | ⟨ecc, rfl⟩ | ⟨ecc, minv, maxv, mask, boost, rfl⟩ | ⟨x, y, rfl⟩ | rfl | rfl := exec_cases h
  · exact hw.sameHostSide
  · rw [exec, execEnctxt_eq_runStages] at h
    exact runStages_sameHostSide 12 (s := enctxtStart ecc s) h
  · exact execEncseg_sameHostSide h
  · exact execGetmod_sameHostSide h
  · rw [exec, execS10Final_eq] at h
    cases h
    exact finalState_sameHostSide s
  · exact execS11Getm_sameHostSide h

end Sys2Proof.Machine
end

section
/-! PROOFS. The encodings (spec/30_encoding.md R92 to R98): a command word as the sum of its fields, what decodes to
what, and which words are illegal (O6, O7, O8, O9). -/

namespace Sys2Proof

/-! ### The fields of a command word -/

/-- The bits of a field as a number. -/
theorem wordField_eq_iff {w : Word} {lo n : Nat} (v : BitVec n) :
    w.extractLsb' lo n = v ↔ w.toNat / 2 ^ lo % 2 ^ n = v.toNat := by
  rw [← BitVec.toNat_inj, BitVec.extractLsb'_toNat, Nat.shiftRight_eq_div_pow]

/-- One bit as a number. -/
theorem wordBit_eq_iff {w : Word} {k : Nat} (b : Bool) : w.getLsbD k = b ↔ w.toNat / 2 ^ k % 2 = b.toNat := by
  rw [← BitVec.testBit_toNat, Nat.testBit_eq_decide_div_mod_eq]
  cases b <;> simp

/-- Fields below a field put at bit n add to it. -/
theorem shiftLeft_or_eq_add {low n : Nat} (h : low < 2 ^ n) (v : Nat) : v <<< n ||| low = 2 ^ n * v + low := by
  rw [Nat.or_comm, Machine.or_shiftLeft_eq_add v h, Nat.add_comm]

/-- A word of format T is the sum of its fields (R92). -/
theorem encodeEnctxt_toNat (ecc : Level) : (encodeEnctxt ecc).toNat = 2 ^ 28 * 1 + ecc.ord.toNat := by
  have := ecc.ord.isLt
  have hop : (0x10000000#32).toNat = 1 <<< 28 := rfl
  simp only [encodeEnctxt, hop, BitVec.toNat_or, BitVec.toNat_setWidth]
  simp (disch := omega) only [Nat.mod_eq_of_lt, shiftLeft_or_eq_add]

/-- A word of format S is the sum of its fields (R93). -/
theorem encodeEncseg_toNat (ecc : Level) (minv maxv : Nat) (mask : Int) (boost : Bool) :
    (encodeEncseg ecc minv maxv mask boost).toNat
      = 2 ^ 28 * 2 + (2 ^ 18 * boost.toNat + (2 ^ 14 * (BitVec.ofInt 4 mask).toNat
        + (2 ^ 8 * (BitVec.ofNat 6 maxv).toNat + (2 ^ 2 * (BitVec.ofNat 6 minv).toNat + ecc.ord.toNat)))) := by
  unfold encodeEncseg
  generalize BitVec.ofInt 4 mask = k, BitVec.ofNat 6 maxv = b, BitVec.ofNat 6 minv = a, ecc.ord = o
  have := o.isLt
  have := a.isLt
  have := b.isLt
  have := k.isLt
  have := boost.toNat_lt
  have hop : (0x20000000#32).toNat = 2 <<< 28 := rfl
  simp only [hop, BitVec.toNat_or, BitVec.toNat_shiftLeft, BitVec.toNat_setWidth, BitVec.toNat_ofBool, Nat.or_assoc]
  simp (disch := omega) only [Nat.mod_eq_of_lt, shiftLeft_or_eq_add]

/-- A word of format G is the sum of its fields (R94). -/
theorem encodeGetmod_toNat (x y : Int) :
    (encodeGetmod x y).toNat
      = 2 ^ 28 * 3 + (2 ^ 12 * (BitVec.ofInt 12 y).toNat + (BitVec.ofInt 12 x).toNat) := by
  unfold encodeGetmod
  generalize BitVec.ofInt 12 x = a, BitVec.ofInt 12 y = b
  have := a.isLt
  have := b.isLt
  have hop : (0x30000000#32).toNat = 3 <<< 28 := rfl
  simp only [hop, BitVec.toNat_or, BitVec.toNat_shiftLeft, BitVec.toNat_setWidth, Nat.or_assoc]
  simp (disch := omega) only [Nat.mod_eq_of_lt, shiftLeft_or_eq_add]

/-- The words of format T, by their fields (R92). -/
theorem encodeEnctxt_eq_iff (ecc : Level) (w : Word) :
    encodeEnctxt ecc = w ↔ w.extractLsb' 28 4 = 1 ∧ w.extractLsb' 2 26 = 0 ∧ w.extractLsb' 0 2 = ecc.ord := by
  rw [← BitVec.toNat_inj, encodeEnctxt_toNat]
  simp only [wordField_eq_iff, BitVec.ofNat_eq_ofNat, BitVec.toNat_ofNat]
  have := ecc.ord.isLt
  have := w.isLt
  omega

/-- The words of format S, by their fields (R93). -/
theorem encodeEncseg_eq_iff (ecc : Level) (minv maxv : Nat) (mask : Int) (boost : Bool) (w : Word) :
    encodeEncseg ecc minv maxv mask boost = w ↔
      w.extractLsb' 28 4 = 2 ∧ w.extractLsb' 19 9 = 0 ∧ w.getLsbD 18 = boost
        ∧ w.extractLsb' 14 4 = BitVec.ofInt 4 mask ∧ w.extractLsb' 8 6 = BitVec.ofNat 6 maxv
        ∧ w.extractLsb' 2 6 = BitVec.ofNat 6 minv ∧ w.extractLsb' 0 2 = ecc.ord := by
  rw [← BitVec.toNat_inj, encodeEncseg_toNat]
  generalize BitVec.ofInt 4 mask = k, BitVec.ofNat 6 maxv = b, BitVec.ofNat 6 minv = a, ecc.ord = o
  simp only [wordField_eq_iff, wordBit_eq_iff, BitVec.ofNat_eq_ofNat, BitVec.toNat_ofNat]
  have := o.isLt
  have := a.isLt
  have := b.isLt
  have := k.isLt
  have := boost.toNat_lt
  have := w.isLt
  omega

/-- The words of format G, by their fields (R94). -/
theorem encodeGetmod_eq_iff (x y : Int) (w : Word) :
    encodeGetmod x y = w ↔
      w.extractLsb' 28 4 = 3 ∧ w.extractLsb' 24 4 = 0 ∧ w.extractLsb' 0 12 = BitVec.ofInt 12 x
        ∧ w.extractLsb' 12 12 = BitVec.ofInt 12 y := by
  rw [← BitVec.toNat_inj, encodeGetmod_toNat]
  generalize BitVec.ofInt 12 x = a, BitVec.ofInt 12 y = b
  simp only [wordField_eq_iff, BitVec.ofNat_eq_ofNat, BitVec.toNat_ofNat]
  have := a.isLt
  have := b.isLt
  have := w.isLt
  omega

/-! ### The operands in their fields (R95) -/

@[simp] theorem levelOfOrd_ord (l : Level) : levelOfOrd l.ord = l := by cases l <;> rfl

@[simp] theorem ord_levelOfOrd : ∀ o : BitVec 2, (levelOfOrd o).ord = o := by decide

theorem toNat_ofNat_version {v : Nat} (h : VersionOperandFits v) : (BitVec.ofNat 6 v).toNat = v :=
  Nat.mod_eq_of_lt h

theorem toInt_ofInt_mask {m : Int} (h : MaskOperandFits m) : (BitVec.ofInt 4 m).toInt = m := by
  rw [BitVec.toInt_ofInt, Int.bmod_eq_of_le] <;> omega

theorem maskOperandFits_toInt (k : BitVec 4) : MaskOperandFits k.toInt :=
  ⟨k.le_toInt, Int.le_of_lt_add_one k.toInt_lt⟩

theorem coordOperandFits_toInt (c : BitVec 12) : CoordOperandFits c.toInt :=
  ⟨c.le_toInt, Int.le_of_lt_add_one c.toInt_lt⟩

theorem encseg_wf_iff {ecc : Level} {minv maxv : Nat} {mask : Int} {boost : Bool} :
    (Instr.encseg ecc minv maxv mask boost).wf = true
      ↔ VersionOperandFits minv ∧ VersionOperandFits maxv ∧ MaskOperandFits mask := by
  simp only [Instr.wf, Bool.and_eq_true, decide_eq_true_eq, and_assoc]

theorem getmod_wf_iff {x y : Int} : (Instr.getmod x y).wf = true ↔ CoordOperandFits x ∧ CoordOperandFits y := by
  simp only [Instr.wf, Bool.and_eq_true, decide_eq_true_eq]

/-! ### Decoding a command word, one equation for each OP (R96) -/

theorem decodeCommand_of_formatT {w : Word} (h : w.extractLsb' 28 4 = 1) :
    decodeCommand w = if w.extractLsb' 2 26 ≠ 0 then .error .reservedBit
      else .ok (.enctxt (levelOfOrd (w.extractLsb' 0 2))) := by
  rw [decodeCommand, h]
  rfl

theorem decodeCommand_of_formatS {w : Word} (h : w.extractLsb' 28 4 = 2) :
    decodeCommand w = if w.extractLsb' 19 9 ≠ 0 then .error .reservedBit
      else .ok (.encseg (levelOfOrd (w.extractLsb' 0 2)) (w.extractLsb' 2 6).toNat (w.extractLsb' 8 6).toNat
        (w.extractLsb' 14 4).toInt (w.getLsbD 18)) := by
  rw [decodeCommand, h]
  rfl

theorem decodeCommand_of_formatG {w : Word} (h : w.extractLsb' 28 4 = 3) :
    decodeCommand w = if w.extractLsb' 24 4 ≠ 0 then .error .reservedBit
      else .ok (.getmod (w.extractLsb' 0 12).toInt (w.extractLsb' 12 12).toInt) := by
  rw [decodeCommand, h]
  rfl

theorem decodeCommand_of_no_format {w : Word} (h1 : w.extractLsb' 28 4 ≠ 1) (h2 : w.extractLsb' 28 4 ≠ 2)
    (h3 : w.extractLsb' 28 4 ≠ 3) : decodeCommand w = .error .illegalOp := by
  unfold decodeCommand
  split
  · exact absurd (BitVec.eq_of_toNat_eq ‹_›) h1
  · exact absurd (BitVec.eq_of_toNat_eq ‹_›) h2
  · exact absurd (BitVec.eq_of_toNat_eq ‹_›) h3
  · rfl

/-- OP is that of one of the three formats, or none of them. -/
theorem commandOp_cases (w : Word) :
    w.extractLsb' 28 4 = 1 ∨ w.extractLsb' 28 4 = 2 ∨ w.extractLsb' 28 4 = 3
      ∨ (w.extractLsb' 28 4 ≠ 1 ∧ w.extractLsb' 28 4 ≠ 2 ∧ w.extractLsb' 28 4 ≠ 3) := by
  tauto

/-- A word of a format decodes exactly where no reserved bit is set, to the instruction of that format. -/
theorem unreserved_eq_ok_iff {p : Prop} [Decidable p] {i j : Instr} :
    (if p then .error .reservedBit else .ok j : Except Reject Instr) = .ok i ↔ ¬p ∧ j = i := by
  by_cases h : p <;> simp [h]

/-- A word of a format is illegal exactly where a reserved bit is set. -/
theorem unreserved_eq_error_iff {p : Prop} [Decidable p] {j : Instr} :
    (∃ r, (if p then .error .reservedBit else .ok j : Except Reject Instr) = .error r) ↔ p := by
  by_cases h : p <;> simp [h]

/-! ### Decode after encode -/

theorem decodeCommand_encodeEnctxt (ecc : Level) : decodeCommand (encodeEnctxt ecc) = .ok (.enctxt ecc) := by
  obtain ⟨hop, hres, hecc⟩ := (encodeEnctxt_eq_iff ecc _).mp rfl
  rw [decodeCommand_of_formatT hop, hres, hecc, levelOfOrd_ord]
  rfl

theorem decodeCommand_encodeEncseg (ecc : Level) {minv maxv : Nat} {mask : Int} (boost : Bool)
    (hmin : VersionOperandFits minv) (hmax : VersionOperandFits maxv) (hmask : MaskOperandFits mask) :
    decodeCommand (encodeEncseg ecc minv maxv mask boost) = .ok (.encseg ecc minv maxv mask boost) := by
  obtain ⟨hop, hres, hb, hk, hM, hm, hecc⟩ := (encodeEncseg_eq_iff ecc minv maxv mask boost _).mp rfl
  rw [decodeCommand_of_formatS hop, hres, hb, hk, hM, hm, hecc, levelOfOrd_ord, toNat_ofNat_version hmin,
    toNat_ofNat_version hmax, toInt_ofInt_mask hmask]
  rfl

theorem decodeCommand_encodeGetmod {x y : Int} (hx : CoordOperandFits x) (hy : CoordOperandFits y) :
    decodeCommand (encodeGetmod x y) = .ok (.getmod x y) := by
  obtain ⟨hop, hres, hX, hY⟩ := (encodeGetmod_eq_iff x y _).mp rfl
  rw [decodeCommand_of_formatG hop, hres, hX, hY, Machine.toInt_ofInt_coord hx, Machine.toInt_ofInt_coord hy]
  rfl

/-- Settles O6: a command word's fields are read back one by one; the other rows' codes are single values. -/
theorem decodeOfEncodeIsTheInstruction : Obligations.DecodeOfEncodeIsTheInstruction := by
  intro i hwf
  cases i with
  | enctxt ecc => exact decodeCommand_encodeEnctxt ecc
  | encseg ecc minv maxv mask boost =>
    obtain ⟨hmin, hmax, hmask⟩ := encseg_wf_iff.mp hwf
    exact decodeCommand_encodeEncseg ecc boost hmin hmax hmask
  | getmod x y =>
    obtain ⟨hx, hy⟩ := getmod_wf_iff.mp hwf
    exact decodeCommand_encodeGetmod hx hy
  | _ => rfl

/-! ### Encode after decode -/

theorem encode_of_decodeCommand {w : Word} {i : Instr} (h : decodeCommand w = .ok i) :
    i.wf = true ∧ encode i = .command w := by
  obtain hop | hop | hop | ⟨h1, h2, h3⟩ := commandOp_cases w
  · rw [decodeCommand_of_formatT hop] at h
    obtain ⟨hres, rfl⟩ := unreserved_eq_ok_iff.mp h
    refine ⟨rfl, congrArg Code.command ((encodeEnctxt_eq_iff _ w).mpr ⟨hop, not_not.mp hres, ?_⟩)⟩
    rw [ord_levelOfOrd]
  · rw [decodeCommand_of_formatS hop] at h
    obtain ⟨hres, rfl⟩ := unreserved_eq_ok_iff.mp h
    refine ⟨encseg_wf_iff.mpr ⟨BitVec.isLt _, BitVec.isLt _, maskOperandFits_toInt _⟩,
      congrArg Code.command ((encodeEncseg_eq_iff _ _ _ _ _ w).mpr ⟨hop, not_not.mp hres, rfl, ?_⟩)⟩
    simp only [BitVec.ofInt_toInt, BitVec.ofNat_toNat, BitVec.setWidth_eq, ord_levelOfOrd, and_self]
  · rw [decodeCommand_of_formatG hop] at h
    obtain ⟨hres, rfl⟩ := unreserved_eq_ok_iff.mp h
    refine ⟨getmod_wf_iff.mpr ⟨coordOperandFits_toInt _, coordOperandFits_toInt _⟩,
      congrArg Code.command ((encodeGetmod_eq_iff _ _ w).mpr ⟨hop, not_not.mp hres, ?_⟩)⟩
    simp only [BitVec.ofInt_toInt, and_self]
  · rw [decodeCommand_of_no_format h1 h2 h3] at h
    cases h

theorem encode_of_decodeStage {c : BitVec 4} {i : Instr} (h : decodeStage c = .ok i) :
    i.wf = true ∧ encode i = .stage c := by
  unfold decodeStage at h
  split at h <;> cases h <;> exact ⟨rfl, congrArg Code.stage (BitVec.eq_of_toNat_eq (Eq.symm ‹_›))⟩

theorem encode_decodeMaskIndex :
    ∀ k : BitVec 3, (decodeMaskIndex k).wf = true ∧ encode (decodeMaskIndex k) = .maskIndex k := by decide

theorem encode_decodeLevel : ∀ o : BitVec 2, (decodeLevel o).wf = true ∧ encode (decodeLevel o) = .level o := by decide

/-- Settles O7: the fields of a command word determine it, and each code of the other three places is one value. -/
theorem encodeOfDecodeIsTheCode : Obligations.EncodeOfDecodeIsTheCode := by
  intro c i h
  cases c with
  | command w => exact encode_of_decodeCommand h
  | stage c => exact encode_of_decodeStage h
  | maskIndex k => cases h; exact encode_decodeMaskIndex k
  | level o => cases h; exact encode_decodeLevel o

/-! ### Illegal words -/

/-- Settles O8, by the equations of the decoder for each OP. -/
theorem illegalWordsAreTheReservedOnes : Obligations.IllegalWordsAreTheReservedOnes := by
  intro w
  have hw := w.isLt
  rw [decode]
  obtain hop | hop | hop | ⟨h1, h2, h3⟩ := commandOp_cases w
  · rw [decodeCommand_of_formatT hop, unreserved_eq_error_iff]
    simp only [wordField_eq_iff, ne_eq, BitVec.ofNat_eq_ofNat, BitVec.toNat_ofNat] at hop ⊢
    omega
  · rw [decodeCommand_of_formatS hop, unreserved_eq_error_iff]
    simp only [wordField_eq_iff, ne_eq, BitVec.ofNat_eq_ofNat, BitVec.toNat_ofNat] at hop ⊢
    omega
  · rw [decodeCommand_of_formatG hop, unreserved_eq_error_iff]
    simp only [wordField_eq_iff, ne_eq, BitVec.ofNat_eq_ofNat, BitVec.toNat_ofNat] at hop ⊢
    omega
  · rw [decodeCommand_of_no_format h1 h2 h3]
    simp only [wordField_eq_iff, ne_eq, BitVec.ofNat_eq_ofNat, BitVec.toNat_ofNat] at h1 h2 h3
    exact ⟨fun _ => .inl (by omega), fun _ => ⟨_, rfl⟩⟩

/-- Settles O9: each sample code is decoded by evaluation. -/
theorem sampleCodesDecode : Obligations.SampleCodesDecode :=
  ⟨rfl, rfl, rfl, rfl, rfl, rfl, rfl, rfl, rfl, rfl⟩

end Sys2Proof
end

section
/-! PROOFS. ENCTXT and ENCSEG on the same bytes (spec/30_encoding.md R101, O48): both enter S2 with the same segment, and
no stage from S2 on reads the word in CMD. -/

namespace Sys2Proof.Machine

/-! ### The stages and CMD -/

/-- CMD holding another word. -/
def withCmd (c : Word) (s : State) : State := { s with cmd := c }

@[simp] theorem withCmd_work (c : Word) (s : State) : (withCmd c s).work = s.work := rfl
@[simp] theorem withCmd_busy (c : Word) (s : State) : (withCmd c s).busy = s.busy := rfl

/-- An operation always goes on, and neither reads nor writes CMD. -/
def IgnoresCmd (f : State → Out) : Prop :=
  ∀ s, ∃ t, f s = .next t ∧ ∀ c, f (withCmd c s) = .next (withCmd c t)

theorem IgnoresCmd.andThen {f g : State → Out} (hf : IgnoresCmd f) (hg : IgnoresCmd g) :
    IgnoresCmd fun s => andThen (f s) g := by
  intro s
  obtain ⟨t, hft, hfc⟩ := hf s
  cases hb : t.busy with
  | false => exact ⟨t, by simp [hft, hb], fun c => by simp [hfc, hb]⟩
  | true =>
    obtain ⟨u, hgu, hgc⟩ := hg t
    exact ⟨u, by simp [hft, hb, hgu], fun c => by simp [hfc, hb, hgc]⟩

theorem IgnoresCmd.finish {f : State → Out} (hf : IgnoresCmd f) : IgnoresCmd fun s => finish (f s) :=
  hf.andThen fun s => ⟨complete s, rfl, fun _ => rfl⟩

theorem execS2Vsel_ignoresCmd : IgnoresCmd execS2Vsel := by
  intro s
  simp only [execS2Vsel, withCmd_work]
  cases firstFit s.work.segs s.work.reqEcl s.work.minv s.work.maxv with
  | none => exact ⟨_, rfl, fun _ => rfl⟩
  | some vt => exact ⟨_, rfl, fun _ => rfl⟩

theorem execS4Asm_ignoresCmd : IgnoresCmd execS4Asm := by
  intro s
  simp only [execS4Asm, withCmd_work]
  cases appendSegments s.work.ver [] s.work.segs with
  | none => exact ⟨_, rfl, fun _ => rfl⟩
  | some bb =>
    by_cases hcap : dataCapacityBits s.work.ver s.work.ecl < bb.length
    · exact ⟨_, if_pos hcap, fun _ => if_pos hcap⟩
    · exact ⟨_, if_neg hcap, fun _ => if_neg hcap⟩

theorem execS9Msel_ignoresCmd : IgnoresCmd execS9Msel := by
  intro s
  obtain ⟨hauto, h⟩ | ⟨hforced, h⟩ := execS9Msel_cases s
  · exact ⟨_, h, fun c => (if_pos hauto).trans rfl⟩
  · exact ⟨_, h, fun c => (if_neg hforced).trans rfl⟩

/-- Stages S2 to S10 always go on, and do not depend on CMD. -/
theorem runFromS2_ignoresCmd : IgnoresCmd runFromS2 := by
  have h3 : IgnoresCmd execS3Boost := fun s => ⟨_, rfl, fun _ => rfl⟩
  have h5 : IgnoresCmd execS5Rsenc := fun s => ⟨_, rfl, fun _ => rfl⟩
  have h6 : IgnoresCmd execS6Ilv := fun s => ⟨_, rfl, fun _ => rfl⟩
  have h7 : IgnoresCmd execS7Fpat := fun s => ⟨_, rfl, fun _ => rfl⟩
  have h8 : IgnoresCmd execS8Place := fun s => ⟨_, rfl, fun _ => rfl⟩
  have h10 : IgnoresCmd execS10Final := fun s => ⟨_, rfl, fun _ => rfl⟩
  exact execS2Vsel_ignoresCmd.andThen h3 |>.andThen execS4Asm_ignoresCmd |>.andThen h5 |>.andThen h6 |>.andThen h7
    |>.andThen h8 |>.andThen execS9Msel_ignoresCmd |>.andThen h10

/-! ### The two commands up to S2 -/

/-- The segment that one SEGTAB element cuts from exactly its bytes is their byte segment (R32, R138). -/
theorem cutSegments_single {e : Word} {bs : List Byte} (hchars : segNumChars e = bs.length)
    (hbits : segBitLen e = 8 * bs.length) : cutSegments [e] (bytesBits bs) = [makeByteSegment bs] := by
  have htake : (bytesBits bs).take (segBitLen e) = bytesBits bs := List.take_of_length_le (by simp [hbits])
  simp only [cutSegments, htake, hchars, makeByteSegment]

/-- S1 makes one byte segment of a written text that expands (R135, R138). -/
theorem execS1Segb_eq {s : State} {units : List CodeUnit} {bs : List Byte} (hlen : s.textlen.toNat = units.length)
    (hmax : units.length ≤ s.cfg.textMax) (htext : s.text.Holds 0 units)
    (hexp : utf8Expand s.cfg.loneSurrogate units = some bs) :
    execS1Segb s = .next (setStage .s2 (setWork { s.work with segs := [makeByteSegment bs] } s)) := by
  have hread : s.text.readRun 0 units.length = .ok units := (readRun_ok_iff ..).mpr ⟨rfl, htext⟩
  simp only [execS1Segb, hlen, Nat.not_lt.mpr hmax, if_false, hread, textSegments, hexp]

/-- ENCTXT on a written text that expands enters S2 as ENCSEG does on its byte segment, but for CMD. -/
theorem execEnctxt_eq_finish {s : State} {units : List CodeUnit} {bs : List Byte} (ecc : Level)
    (hlen : s.textlen.toNat = units.length) (hmax : units.length ≤ s.cfg.textMax) (htext : s.text.Holds 0 units)
    (hexp : utf8Expand s.cfg.loneSurrogate units = some bs) :
    execEnctxt ecc s = finish (runFromS2 (withCmd (encodeEnctxt ecc)
      (encsegStart ecc 1 40 (-1) true [makeByteSegment bs] s))) := by
  have h1 := execS1Segb_eq (s := enctxtStart ecc s) hlen hmax htext hexp
  rw [enctxtStart] at h1
  rw [execEnctxt, runEncTxt, h1, andThen_next_busy _ rfl]
  rfl

/-- Settles O48: the two commands enter S2 with the same segment and differ in CMD only, which S2 to S10 ignore. -/
theorem enctxtIsEncsegOnTheTextsBytes : Obligations.EnctxtIsEncsegOnTheTextsBytes := by
  intro s ecc units bs e hcfg hlen hmax htext hexp hnseg he hchars hbits hbytes hdata
  obtain ⟨-, hsegMax, -⟩ := hcfg
  have htotal : totalBitLen [e] = 8 * bs.length := by simpa [totalBitLen] using hbits
  have htab : s.segtab.Holds 0 [e] := fun k hk => by
    obtain rfl : k = 0 := by simpa using hk
    exact he
  have hsegs := cutSegments_single hchars hbits
  have hload (k : List Segment → Out) :
      loadSegments (startEncode (encodeEncseg ecc 1 40 (-1) true) s) k = k [makeByteSegment bs] := by
    rw [← hsegs]
    exact loadSegments_eq k (congrArg BitVec.toNat hnseg) hsegMax htab (by simpa [htotal] using hbytes)
      (by omega) hdata
  obtain ⟨u, hu, hcmd⟩ := runFromS2_ignoresCmd.finish (encsegStart ecc 1 40 (-1) true [makeByteSegment bs] s)
  refine ⟨_, u, (execEnctxt_eq_finish ecc hlen hmax htext hexp).trans (hcmd _), ?_, rfl⟩
  exact (execEncseg_eq_finish (by decide) (by decide) hload).trans hu

end Sys2Proof.Machine
end

section
/-! PROOFS. The Segment Builder (spec/41_segment_builder.md): UTF-8 expansion by its recursion on pairs and single code
units, what S1 makes of a text, the raises of S1 and S4, and the empty text (O13 to O17, O45). -/

namespace Sys2Proof.Machine

/-! ### The recursion of UTF-8 expansion -/

/-- A high surrogate with a low one directly after it (R134). -/
def PairsWith (c : CodeUnit) (rest : List CodeUnit) : Prop :=
  isHighSurrogate c = true ∧ ∃ d, rest.head? = some d ∧ isLowSurrogate d = true

theorem pairsWith_cons {c d : CodeUnit} {rest : List CodeUnit} :
    PairsWith c (d :: rest) ↔ isHighSurrogate c = true ∧ isLowSurrogate d = true := by
  simp [PairsWith]

/-- A text is empty, or starts with a surrogate pair, or with a code unit that is not the first of a pair. -/
theorem text_induction {motive : List CodeUnit → Prop} (nil : motive [])
    (pair : ∀ c d rest, isHighSurrogate c = true → isLowSurrogate d = true → motive rest → motive (c :: d :: rest))
    (unit : ∀ c rest, ¬PairsWith c rest → motive rest → motive (c :: rest)) (u : List CodeUnit) : motive u := by
  induction u using utf8Expand.induct with
  | case1 => exact nil
  | case2 c => exact unit c [] (by simp [PairsWith]) nil
  | case3 c d rest h ih =>
    rw [Bool.and_eq_true] at h
    exact pair c d rest h.1 h.2 ih
  | case4 c d rest h ih =>
    rw [Bool.and_eq_true, ← pairsWith_cons (rest := rest)] at h
    exact unit c (d :: rest) h ih

@[simp] theorem prependBytes_some (bs : List Byte) (o : Option (List Byte)) :
    prependBytes (some bs) o = o.map (bs ++ ·) := by
  cases o <;> rfl

theorem prependBytes_eq_some_iff {o p : Option (List Byte)} {bs : List Byte} :
    prependBytes o p = some bs ↔ ∃ front rest, o = some front ∧ p = some rest ∧ front ++ rest = bs := by
  cases o <;> cases p <;> simp [prependBytes]

theorem prependBytes_eq_none_iff {o p : Option (List Byte)} : prependBytes o p = none ↔ o = none ∨ p = none := by
  cases o <;> cases p <;> simp [prependBytes]

/-- A surrogate pair at the head expands to the four bytes of its code point (R134). -/
theorem utf8Expand_pair (ls : LoneSurrogate) {c d : CodeUnit} (rest : List CodeUnit) (hc : isHighSurrogate c = true)
    (hd : isLowSurrogate d = true) :
    utf8Expand ls (c :: d :: rest) = (utf8Expand ls rest).map (enc4 (pairCodePoint c d) ++ ·) := by
  rw [utf8Expand, if_pos (by rw [hc, hd]; rfl), prependBytes_some]

/-- A code unit at the head that is not the first of a pair expands on its own (R130). -/
theorem utf8Expand_unit (ls : LoneSurrogate) {c : CodeUnit} {rest : List CodeUnit} (h : ¬PairsWith c rest) :
    utf8Expand ls (c :: rest) = prependBytes (encUnit ls c) (utf8Expand ls rest) := by
  cases rest with
  | nil => cases hc : encUnit ls c <;> simp [utf8Expand, hc, prependBytes]
  | cons d rest => rw [utf8Expand, if_neg (by rwa [Bool.and_eq_true, ← pairsWith_cons (rest := rest)])]

/-! ### One code unit -/

theorem isHighSurrogate_iff {c : CodeUnit} : isHighSurrogate c = true ↔ 0xD800 ≤ c.toNat ∧ c.toNat ≤ 0xDBFF := by
  simp [isHighSurrogate]

theorem isLowSurrogate_iff {c : CodeUnit} : isLowSurrogate c = true ↔ 0xDC00 ≤ c.toNat ∧ c.toNat ≤ 0xDFFF := by
  simp [isLowSurrogate]

/-- A surrogate code unit, 0xD800 to 0xDFFF (R137). -/
def IsSurrogate (c : CodeUnit) : Prop := 0xD800 ≤ c.toNat ∧ c.toNat ≤ 0xDFFF

theorem isSurrogate_iff {c : CodeUnit} : IsSurrogate c ↔ isHighSurrogate c = true ∨ isLowSurrogate c = true := by
  rw [IsSurrogate, isHighSurrogate_iff, isLowSurrogate_iff]
  omega

theorem isHighSurrogate_of_low {c : CodeUnit} (h : isLowSurrogate c = true) : isHighSurrogate c = false := by
  rw [Bool.eq_false_iff, ne_eq, isHighSurrogate_iff]
  rw [isLowSurrogate_iff] at h
  omega

theorem not_pairsWith_of_not_surrogate {c : CodeUnit} (h : ¬IsSurrogate c) (rest : List CodeUnit) :
    ¬PairsWith c rest := fun hp => h (isSurrogate_iff.mpr (.inl hp.1))

theorem encUnit_one (ls : LoneSurrogate) {c : CodeUnit} (h : c.toNat < 0x80) : encUnit ls c = some (enc1 c.toNat) :=
  if_pos h

theorem encUnit_two (ls : LoneSurrogate) {c : CodeUnit} (h : 0x80 ≤ c.toNat) (h' : c.toNat < 0x800) :
    encUnit ls c = some (enc2 c.toNat) := by
  rw [encUnit.eq_def, if_neg (Nat.not_lt.mpr h), if_pos h']

/-- From 0x800 on a code unit has three bytes (R133), but for a surrogate under `fault` (R137). -/
theorem encUnit_three {ls : LoneSurrogate} {c : CodeUnit} (h : 0x800 ≤ c.toNat)
    (hs : IsSurrogate c → ls = .threeByte) : encUnit ls c = some (enc3 c.toNat) := by
  rw [encUnit.eq_def, if_neg (by omega), if_neg (Nat.not_lt.mpr h)]
  split
  · rename_i hc
    rw [hs (isSurrogate_iff.mpr (Bool.or_eq_true_iff.mp hc))]
  · rfl

theorem encUnit_surrogate_fault {c : CodeUnit} (h : IsSurrogate c) : encUnit .fault c = none := by
  have hlo : 0xD800 ≤ c.toNat := h.1
  rw [encUnit, if_neg (by omega), if_neg (by omega), if_pos (by rwa [Bool.or_eq_true, ← isSurrogate_iff])]

/-- What the bytes of a code unit on its own can be (R131, R132, R133, R137). -/
theorem encUnit_cases (ls : LoneSurrogate) (c : CodeUnit) :
    (ls = .fault ∧ IsSurrogate c ∧ encUnit ls c = none)
      ∨ ¬(ls = .fault ∧ IsSurrogate c)
        ∧ (encUnit ls c = some (enc1 c.toNat) ∨ encUnit ls c = some (enc2 c.toNat)
          ∨ encUnit ls c = some (enc3 c.toNat)) := by
  by_cases hraise : ls = .fault ∧ IsSurrogate c
  · obtain ⟨rfl, hs⟩ := hraise
    exact .inl ⟨rfl, hs, encUnit_surrogate_fault hs⟩
  refine .inr ⟨hraise, ?_⟩
  rcases Nat.lt_or_ge c.toNat 0x80 with h1 | h1
  · exact .inl (encUnit_one ls h1)
  rcases Nat.lt_or_ge c.toNat 0x800 with h2 | h2
  · exact .inr (.inl (encUnit_two ls h1 h2))
  · refine .inr (.inr (encUnit_three h2 fun hs => ?_))
    cases ls with
    | fault => exact absurd ⟨rfl, hs⟩ hraise
    | threeByte => rfl

/-- A code unit on its own raises exactly where it is a surrogate, under `fault` (R137). -/
theorem encUnit_eq_none_iff {ls : LoneSurrogate} {c : CodeUnit} :
    encUnit ls c = none ↔ ls = .fault ∧ IsSurrogate c := by
  obtain ⟨rfl, hs, h⟩ | ⟨hraise, h | h | h⟩ := encUnit_cases ls c
  · simp [h, hs]
  all_goals simp [h, hraise]

theorem encUnit_length {ls : LoneSurrogate} {c : CodeUnit} {bs : List Byte} (h : encUnit ls c = some bs) :
    1 ≤ bs.length ∧ bs.length ≤ 3 := by
  obtain ⟨-, -, h'⟩ | ⟨-, h' | h' | h'⟩ := encUnit_cases ls c <;> rw [h'] at h <;> cases h <;>
    simp [enc1, enc2, enc3]

/-! ### The bytes of each class -/

/-- Under a lead, a value that fits the low bits is taken whole: the mask of R136's layout changes nothing. -/
theorem utf8Byte_lead (lead : Nat) {n v : Nat} (h : v < 2 ^ n) :
    utf8Byte lead (2 ^ n - 1) v = BitVec.ofNat 8 (lead ||| v) := by
  rw [utf8Byte, Nat.and_two_pow_sub_one_of_lt_two_pow h]

theorem enc2_eq {c : Nat} (h : c < 0x800) :
    enc2 c = [BitVec.ofNat 8 (0xC0 ||| c >>> 6), BitVec.ofNat 8 (0x80 ||| c &&& 0x3F)] := by
  have hlead : utf8Byte 0xC0 0x1F (c >>> 6) = BitVec.ofNat 8 (0xC0 ||| c >>> 6) :=
    utf8Byte_lead 0xC0 (n := 5) (by rw [Nat.shiftRight_eq_div_pow]; omega)
  rw [enc2, hlead]
  rfl

theorem enc3_eq {c : Nat} (h : c < 2 ^ 16) :
    enc3 c = [BitVec.ofNat 8 (0xE0 ||| c >>> 12), BitVec.ofNat 8 (0x80 ||| c >>> 6 &&& 0x3F),
      BitVec.ofNat 8 (0x80 ||| c &&& 0x3F)] := by
  have hlead : utf8Byte 0xE0 0x0F (c >>> 12) = BitVec.ofNat 8 (0xE0 ||| c >>> 12) :=
    utf8Byte_lead 0xE0 (n := 4) (by rw [Nat.shiftRight_eq_div_pow]; omega)
  rw [enc3, hlead]
  rfl

theorem enc4_eq {cp : Nat} (h : cp < 2 ^ 21) :
    enc4 cp = [BitVec.ofNat 8 (0xF0 ||| cp >>> 18), BitVec.ofNat 8 (0x80 ||| cp >>> 12 &&& 0x3F),
      BitVec.ofNat 8 (0x80 ||| cp >>> 6 &&& 0x3F), BitVec.ofNat 8 (0x80 ||| cp &&& 0x3F)] := by
  have hlead : utf8Byte 0xF0 0x07 (cp >>> 18) = BitVec.ofNat 8 (0xF0 ||| cp >>> 18) :=
    utf8Byte_lead 0xF0 (n := 3) (by rw [Nat.shiftRight_eq_div_pow]; omega)
  rw [enc4, hlead]
  rfl

theorem pairCodePoint_eq (c d : CodeUnit) :
    pairCodePoint c d = 0x10000 + (c.toNat - 0xD800) * 2 ^ 10 + (d.toNat - 0xDC00) := by
  unfold pairCodePoint
  rw [Nat.shiftLeft_eq]

/-- A code unit at the head that expands on its own, before the bytes of the rest (R130). -/
theorem utf8Expand_of_encUnit {ls : LoneSurrogate} {c : CodeUnit} {rest : List CodeUnit} {bs : List Byte}
    (hp : ¬PairsWith c rest) (h : encUnit ls c = some bs) :
    utf8Expand ls (c :: rest) = (utf8Expand ls rest).map (bs ++ ·) := by
  rw [utf8Expand_unit ls hp, h, prependBytes_some]

/-- A code unit of three bytes at the head (R133, R137). -/
theorem utf8Expand_three {ls : LoneSurrogate} {c : CodeUnit} {rest : List CodeUnit} (hp : ¬PairsWith c rest)
    (h : 0x800 ≤ c.toNat) (hs : IsSurrogate c → ls = .threeByte) :
    utf8Expand ls (c :: rest) = (utf8Expand ls rest).map ([BitVec.ofNat 8 (0xE0 ||| c.toNat >>> 12),
      BitVec.ofNat 8 (0x80 ||| c.toNat >>> 6 &&& 0x3F), BitVec.ofNat 8 (0x80 ||| c.toNat &&& 0x3F)] ++ ·) := by
  rw [← enc3_eq c.isLt]
  exact utf8Expand_of_encUnit hp (encUnit_three h hs)

/-- Settles O13: the expansion takes the pair or the code unit at the head, and the value under each lead byte fits. -/
theorem utf8ExpandsClassByClass : Obligations.Utf8ExpandsClassByClass := by
  intro ls c d rest
  refine ⟨fun h => ?_, fun h h' => ?_, fun h hs => ?_, fun cp hc hc' hd hd' hcp => ?_⟩
  · have hs : ¬IsSurrogate c := fun hs => absurd hs.1 (by omega)
    exact utf8Expand_of_encUnit (not_pairsWith_of_not_surrogate hs rest) (encUnit_one ls h)
  · have hs : ¬IsSurrogate c := fun hs => absurd hs.1 (by omega)
    rw [← enc2_eq h']
    exact utf8Expand_of_encUnit (not_pairsWith_of_not_surrogate hs rest) (encUnit_two ls h h')
  · exact utf8Expand_three (not_pairsWith_of_not_surrogate hs rest) h fun h => absurd h hs
  · rw [← enc4_eq (by omega), hcp.trans (pairCodePoint_eq c d).symm]
    exact utf8Expand_pair ls rest (isHighSurrogate_iff.mpr ⟨hc, hc'⟩) (isLowSurrogate_iff.mpr ⟨hd, hd'⟩)

/-- Settles O15, by induction on the text: four bytes for a pair, one to three for a code unit on its own. -/
theorem utf8LengthIsBounded : Obligations.Utf8LengthIsBounded := by
  intro ls u
  induction u using text_induction with
  | nil =>
    rintro bs ⟨⟩
    decide
  | pair c d rest hc hd ih =>
    intro bs h
    rw [utf8Expand_pair ls rest hc hd, Option.map_eq_some_iff] at h
    obtain ⟨cs, hcs, rfl⟩ := h
    have := ih cs hcs
    simp only [enc4, List.length_append, List.length_cons, List.length_nil]
    omega
  | unit c rest hp ih =>
    intro bs h
    rw [utf8Expand_unit ls hp, prependBytes_eq_some_iff] at h
    obtain ⟨front, cs, hfront, hcs, rfl⟩ := h
    have := ih cs hcs
    have := encUnit_length hfront
    simp only [List.length_append, List.length_cons]
    omega

/-! ### Unpaired surrogates -/

/-- Past its head, a text has the unpaired surrogates of its tail, but where the head pairs with the next unit. -/
theorem unpairedAt_succ {c : CodeUnit} {u : List CodeUnit} {i : Nat} (h : i = 0 → ¬PairsWith c u) :
    UnpairedAt (c :: u) (i + 1) ↔ UnpairedAt u i := by
  refine or_congr Iff.rfl (exists_congr fun d => and_congr_right fun hd => and_congr_right fun hlow => ?_)
  rw [List.getElem?_cons_succ] at hd
  cases i with
  | zero =>
    refine ⟨fun _ j _ hj => absurd hj (Nat.succ_ne_zero j).symm, fun _ j e hj he => ?_⟩
    obtain rfl : j = 0 := by omega
    obtain rfl : c = e := by simpa using he
    exact Bool.eq_false_iff.mpr fun hc => h rfl ⟨hc, d, by rwa [List.head?_eq_getElem?], hlow⟩
  | succ i =>
    constructor
    · intro hall j e hj he
      exact hall (j + 1) e (by omega) he
    · intro hall j e hj he
      obtain rfl : j = i + 1 := by omega
      exact hall i e rfl he

/-- The head of a text is an unpaired surrogate where it is a surrogate and not the first of a pair. -/
theorem unpairedAt_zero {c : CodeUnit} {u : List CodeUnit} :
    UnpairedAt (c :: u) 0 ↔ IsSurrogate c ∧ ¬PairsWith c u := by
  constructor
  · rintro (⟨d, hd, hhigh, hnext⟩ | ⟨d, hd, hlow, -⟩) <;> obtain rfl : c = d := by simpa using hd
    · refine ⟨isSurrogate_iff.mpr (.inl hhigh), fun ⟨_, e, he, hlow⟩ => ?_⟩
      rw [List.head?_eq_getElem?] at he
      simp [hnext e he] at hlow
    · exact ⟨isSurrogate_iff.mpr (.inr hlow), fun ⟨hhigh, _⟩ => by simp [isHighSurrogate_of_low hlow] at hhigh⟩
  · rintro ⟨hs, hp⟩
    obtain hhigh | hlow := isSurrogate_iff.mp hs
    · refine .inl ⟨c, rfl, hhigh, fun d hd => Bool.eq_false_iff.mpr fun hlow => hp ⟨hhigh, d, ?_, hlow⟩⟩
      rwa [List.head?_eq_getElem?]
    · exact .inr ⟨c, rfl, hlow, fun j _ hj => absurd hj (Nat.succ_ne_zero j).symm⟩

theorem exists_unpairedAt_unit {c : CodeUnit} {rest : List CodeUnit} (h : ¬PairsWith c rest) :
    (∃ i, UnpairedAt (c :: rest) i) ↔ IsSurrogate c ∨ ∃ i, UnpairedAt rest i := by
  rw [← Nat.or_exists_add_one, unpairedAt_zero, and_iff_left h]
  exact or_congr_right (exists_congr fun i => unpairedAt_succ fun _ => h)

theorem exists_unpairedAt_pair {c d : CodeUnit} {rest : List CodeUnit} (hc : isHighSurrogate c = true)
    (hd : isLowSurrogate d = true) : (∃ i, UnpairedAt (c :: d :: rest) i) ↔ ∃ i, UnpairedAt rest i := by
  have hd' : isHighSurrogate d = false := isHighSurrogate_of_low hd
  have h0 : ¬UnpairedAt (c :: d :: rest) 0 := fun h => (unpairedAt_zero.mp h).2 (pairsWith_cons.mpr ⟨hc, hd⟩)
  have h1 : ¬UnpairedAt (c :: d :: rest) 1 := by simp [UnpairedAt, hc, hd']
  have hshift (i : Nat) : UnpairedAt (c :: d :: rest) (i + 2) ↔ UnpairedAt rest i :=
    (unpairedAt_succ fun h => absurd h (Nat.succ_ne_zero i)).trans
      (unpairedAt_succ fun _ ⟨hhigh, _⟩ => by simp [hd'] at hhigh)
  rw [← Nat.or_exists_add_one, ← Nat.or_exists_add_one, or_iff_right h0, or_iff_right h1]
  exact exists_congr hshift

/-- A text fails to expand exactly under `fault`, where it holds an unpaired surrogate (R137). -/
theorem utf8Expand_eq_none_iff (ls : LoneSurrogate) (u : List CodeUnit) :
    utf8Expand ls u = none ↔ ls = .fault ∧ ∃ i, UnpairedAt u i := by
  induction u using text_induction with
  | nil => simp [utf8Expand, UnpairedAt]
  | pair c d rest hc hd ih =>
    rw [utf8Expand_pair ls rest hc hd, Option.map_eq_none_iff, ih, exists_unpairedAt_pair hc hd]
  | unit c rest hp ih =>
    rw [utf8Expand_unit ls hp, prependBytes_eq_none_iff, encUnit_eq_none_iff, ih, exists_unpairedAt_unit hp,
      and_or_left]

/-- Settles O14: by the recursion on pairs and single code units, for both readings of an unpaired surrogate. -/
theorem onlyUnpairedSurrogatesRaise : Obligations.OnlyUnpairedSurrogatesRaise := by
  refine ⟨fun u => ?_, fun u => ?_, fun c rest hlo hhi hnext => ?_⟩
  · rw [utf8Expand_eq_none_iff, and_iff_right rfl]
  · exact Option.ne_none_iff_exists'.mp fun h => by simpa using ((utf8Expand_eq_none_iff _ u).mp h).1
  · refine utf8Expand_three (fun ⟨hhigh, d, hd, hlow⟩ => ?_) (by omega) fun _ => rfl
    exact hnext (isHighSurrogate_iff.mp hhigh).2 d hd (isLowSurrogate_iff.mp hlow)

/-! ### S1 and S4 -/

/-- Settles O16: the bits of the segment are those of the bytes (R64), and S1 reads the whole written text. -/
theorem segbMakesOneByteSegment : Obligations.SegbMakesOneByteSegment := by
  intro s units bs hlen hmax htext hexp
  exact ⟨bytesBits bs, execS1Segb_eq hlen hmax htext hexp, bytesBits_length bs, fun k _ => bytesBits_getElem? bs k⟩

/-- S1 raises LEN_RANGE before it reads any element (R135). -/
theorem execS1Segb_lenRange {s : State} (h : s.cfg.textMax < s.textlen.toNat) :
    execS1Segb s = .next (raise .lenRange s) := if_pos h

/-- S1 raises LONE_SURROGATE on a written text that does not expand (R137). -/
theorem execS1Segb_loneSurrogate {s : State} {units : List CodeUnit} (hlen : s.textlen.toNat = units.length)
    (hmax : units.length ≤ s.cfg.textMax) (htext : s.text.Holds 0 units)
    (hexp : utf8Expand s.cfg.loneSurrogate units = none) : execS1Segb s = .next (raise .loneSurrogate s) := by
  have hread : s.text.readRun 0 units.length = .ok units := (readRun_ok_iff ..).mpr ⟨rfl, htext⟩
  simp only [execS1Segb, hlen, Nat.not_lt.mpr hmax, if_false, hread, textSegments, hexp]

theorem appendSegment_eq_none {v : Nat} (bb : List Bool) {g : Segment} (h : ¬g.numChars < 2 ^ countFieldWidth v) :
    appendSegment v bb g = none := by
  simp [appendSegment, appendBits, h]

theorem countsFit_cons {v : Nat} {g : Segment} {segs : List Segment} :
    CountsFit v (g :: segs) ↔ g.numChars < 2 ^ countFieldWidth v ∧ CountsFit v segs := List.forall_mem_cons

/-- Where a count does not fit its field, S4's stream is not built (R160). -/
theorem appendSegments_eq_none {v : Nat} {segs : List Segment} (h : ¬CountsFit v segs) (bb : List Bool) :
    appendSegments v bb segs = none := by
  induction segs generalizing bb with
  | nil => exact absurd (List.forall_mem_nil _) h
  | cons g segs ih =>
    by_cases hg : g.numChars < 2 ^ countFieldWidth v
    · have hrest : ¬CountsFit v segs := fun hr => h (countsFit_cons.mpr ⟨hg, hr⟩)
      simp [appendSegments, appendSegment_eq bb hg, ih hrest]
    · simp [appendSegments, appendSegment_eq_none bb hg]

theorem execS4Asm_bitWidth {s : State} (h : ¬CountsFit s.work.ver s.work.segs) :
    execS4Asm s = .next (raise .bitWidth s) := by
  simp only [execS4Asm, appendSegments_eq_none h]

theorem execS4Asm_payloadExceeds {s : State} (h : CountsFit s.work.ver s.work.segs)
    (hcap : dataCapacityBits s.work.ver s.work.ecl < (dataStream s.work.ver s.work.segs).length) :
    execS4Asm s = .next (raise .payloadExceeds s) := by
  simp only [execS4Asm, appendSegments_eq h, List.nil_append, hcap, if_true]

/-- Settles O17: each operation answers its raise, and the codes are those of the four causes (R281, R282). -/
theorem segbAndAsmRaiseTheirErrors : Obligations.SegbAndAsmRaiseTheirErrors :=
  ⟨fun _ h => execS1Segb_lenRange h, fun _ _ hlen hmax htext hexp => execS1Segb_loneSurrogate hlen hmax htext hexp,
    fun _ h => execS4Asm_bitWidth h, fun _ h hcap => execS4Asm_payloadExceeds h hcap⟩

/-! ### ENCTXT -/

/-- ENCTXT on a written text whose byte segment fits some version ends well and holds the Symbol that the rules give
for that segment (R261). -/
theorem execEnctxt_symbol {s : State} {units : List CodeUnit} {bs : List Byte} (ecc : Level)
    (hlen : s.textlen.toNat = units.length) (hmax : units.length ≤ s.cfg.textMax) (htext : s.text.Holds 0 units)
    (hexp : utf8Expand s.cfg.loneSurrogate units = some bs)
    (hfit : ∃ v, 1 ≤ v ∧ v ≤ 40 ∧ Fits [makeByteSegment bs] ecc v) :
    ∃ t, execEnctxt ecc s = .next t ∧ EndsWell t ∧ t.cmd = encodeEnctxt ecc
      ∧ IsSymbolOf s.cfg [makeByteSegment bs] ecc 1 40 (-1) true t.sym ∧ SameHostSide s t ∧ t.result = s.result := by
  have hrun := execEnctxt_eq_finish ecc hlen hmax htext hexp
  obtain ⟨w, y, h, hy⟩ := runFromS2_symbol
    (s := withCmd (encodeEnctxt ecc) (encsegStart ecc 1 40 (-1) true [makeByteSegment bs] s)) rfl (le_refl (-1)) hfit
  rw [h, finish_next_busy rfl] at hrun
  refine ⟨_, hrun, ?_, ?_, hy, ?_, ?_⟩ <;> simp [EndsWell, SameHostSide, encsegStart, startEncode, withCmd]

/-- The 12 bits of the empty segment fit version 1 at every level (R139). -/
theorem emptySegment_fits (l : Level) : Fits [makeByteSegment []] l 1 :=
  ⟨by simp [CountsFit, makeByteSegment], by cases l <;> decide⟩

/-- Settles O45: the empty segment fits version 1, the first, at every level, so boosting ends at HIGH (R147, R148). -/
theorem emptyTextGivesVersionOneHigh : Obligations.EmptyTextGivesVersionOneHigh := by
  intro s ecc hlen
  have htext : s.text.Holds 0 [] := fun k hk => absurd hk (Nat.not_lt_zero k)
  obtain ⟨t, hrun, hend, -, ⟨v, l, k, ⟨hv, -, -, hfirst⟩, hlevel, hmask, hsym⟩, hhost, -⟩ :=
    execEnctxt_symbol ecc (units := []) (congrArg BitVec.toNat hlen) (Nat.zero_le _) htext rfl
      ⟨1, by decide, by decide, emptySegment_fits ecc⟩
  obtain rfl : v = 1 := by
    by_contra hne
    exact hfirst 1 le_rfl (by omega) (emptySegment_fits ecc)
  obtain rfl : l = .high := by
    obtain ⟨-, -, hmax⟩ := hlevel
    have hhigh := hmax .high (emptySegment_fits .high).2
    cases l with
    | high => rfl
    | low | medium | quartile => exact absurd hhigh (by decide)
  rw [IsMaskChoice, if_pos rfl] at hmask
  refine ⟨t, hrun, hend, ?_, ?_, ?_, ?_, ?_, hhost⟩ <;> rw [hsym]
  exacts [rfl, rfl, rfl, rfl, hmask.1]

end Sys2Proof.Machine
end

section
/-! PROOFS. The Capacity/Version Selector (spec/42_version_selector.md): the capacity table, TotalBits, the first fitting
version of S2 and the level of S3 (O19 to O22). -/

namespace Sys2Proof.Machine

/-! ### Capacity -/

/-- The rows of the model are the rows of the spec's table (R145). -/
theorem capacityRow_eq_table : (List.range' 1 40).map capacityRow = capacityTable := by decide

/-- Capacity falls strictly with the level, to at least 9 codewords (R149). -/
theorem dataCodewords_falls : ∀ v ∈ List.range' 1 40,
    dataCodewords v .medium < dataCodewords v .low ∧ dataCodewords v .quartile < dataCodewords v .medium
      ∧ dataCodewords v .high < dataCodewords v .quartile ∧ 9 ≤ dataCodewords v .high := by decide

/-- Settles O19: the table and the fall are evaluated at the 40 versions; the formulas are the model's own. -/
theorem capacityFallsWithTheLevel : Obligations.CapacityFallsWithTheLevel := by
  refine ⟨capacityRow_eq_table, fun v hlo hhi => ⟨rfl, rfl, fun _ => ⟨rfl, rfl⟩, ?_⟩⟩
  exact dataCodewords_falls v (List.mem_range'_1.mpr ⟨hlo, by omega⟩)

/-! ### TotalBits -/

/-- Each segment contributes 4 bits, its count field and its payload (R102). -/
theorem dataStream_length (v : Nat) (segs : List Segment) :
    (dataStream v segs).length = (segs.map fun g => 4 + countFieldWidth v + g.bits.length).sum := by
  simp only [dataStream, List.length_flatMap, segmentBits_length]

/-- Settles O20: TotalBits is the length of the data stream, which is the sum over the segments. -/
theorem totalBitsIsTheSum : Obligations.TotalBitsIsTheSum := by
  intro segs v
  refine ⟨totalBits_eq_none, fun h => ⟨?_, totalBits_eq h⟩⟩
  rw [totalBits_eq h, dataStream_length]

/-! ### S2 VSEL -/

/-- Where no version of the range fits, S2's search finds none (R150). -/
theorem firstFit_eq_none {segs : List Segment} {l : Level} {minv maxv : Nat}
    (h : ∀ v, minv ≤ v → v ≤ maxv → ¬Fits segs l v) : firstFit segs l minv maxv = none := by
  refine List.findSome?_eq_none_iff.mpr fun v hv => ?_
  rw [List.mem_range'_1] at hv
  by_cases hc : CountsFit v segs
  · have hlong : ¬(dataStream v segs).length ≤ dataCapacityBits v l :=
      fun hle => h v hv.1 (by omega) ⟨hc, hle⟩
    simp [totalBits_eq hc, hlong]
  · simp [totalBits_eq_none hc]

theorem execS2Vsel_eq {s : State} {v : Nat} (hlo : s.work.minv ≤ v) (hhi : v ≤ s.work.maxv)
    (hfit : Fits s.work.segs s.work.reqEcl v)
    (hfirst : ∀ u, s.work.minv ≤ u → u < v → ¬Fits s.work.segs s.work.reqEcl u) :
    execS2Vsel s = .next (setStage .s3 (setWork (selectedWork s.work v) s)) := by
  rw [execS2Vsel, firstFit_eq hlo hhi hfit hfirst]
  rfl

theorem execS2Vsel_noVersionFits {s : State}
    (h : ∀ v, s.work.minv ≤ v → v ≤ s.work.maxv → ¬Fits s.work.segs s.work.reqEcl v) :
    execS2Vsel s = .next (raise .noVersionFits s) := by
  rw [execS2Vsel, firstFit_eq_none h]

/-- Settles O21: the search finds the first version that fits, or none; NO_VERSION_FITS has the code 0x12 (R281). -/
theorem vselTakesTheFirstFittingVersion : Obligations.VselTakesTheFirstFittingVersion :=
  ⟨fun _ _ hlo hhi hfit hfirst => execS2Vsel_eq hlo hhi hfit hfirst, fun _ h => execS2Vsel_noVersionFits h⟩

/-! ### S3 BOOST -/

/-- Boosting takes the highest of MEDIUM, QUARTILE, HIGH that holds the bits, or keeps the level where none does
(R148). -/
theorem boostLevel_cases (v used : Nat) (l : Level) :
    (boostLevel v used l ≠ .low ∧ used ≤ dataCapacityBits v (boostLevel v used l)
        ∧ ∀ m, used ≤ dataCapacityBits v m → m.ord.toNat ≤ (boostLevel v used l).ord.toNat)
      ∨ (boostLevel v used l = l ∧ ∀ m, m ≠ .low → dataCapacityBits v m < used) := by
  by_cases hh : used ≤ dataCapacityBits v .high
  · have hl : boostLevel v used l = .high := by simp [boostLevel, hh]
    rw [hl]
    exact .inl ⟨by decide, hh, fun m _ => by cases m <;> decide⟩
  by_cases hq : used ≤ dataCapacityBits v .quartile
  · have hl : boostLevel v used l = .quartile := by simp [boostLevel, hh, hq]
    rw [hl]
    refine .inl ⟨by decide, hq, fun m hm => ?_⟩
    cases m with
    | high => exact absurd hm hh
    | low | medium | quartile => decide
  by_cases hmed : used ≤ dataCapacityBits v .medium
  · have hl : boostLevel v used l = .medium := by simp [boostLevel, hh, hq, hmed]
    rw [hl]
    refine .inl ⟨by decide, hmed, fun m hm => ?_⟩
    cases m with
    | high => exact absurd hm hh
    | quartile => exact absurd hm hq
    | low | medium => decide
  · refine .inr ⟨by simp [boostLevel, hh, hq, hmed], fun m hlow => ?_⟩
    cases m with
    | low => exact absurd rfl hlow
    | medium => exact Nat.lt_of_not_le hmed
    | quartile => exact Nat.lt_of_not_le hq
    | high => exact Nat.lt_of_not_le hh

/-- A final level is not below the requested one (R148). -/
theorem IsFinalLevel.not_below {v used : Nat} {ecc l : Level} {boost : Bool} (h : IsFinalLevel v used ecc boost l) :
    ecc.ord.toNat ≤ l.ord.toNat := by
  cases boost
  · exact (show l = ecc from h) ▸ le_rfl
  · obtain ⟨-, hle, -⟩ := h
    exact hle

/-- Settles O22: S3 writes the final level, which is the boosted one where the flag is set and else the level in force. -/
theorem boostTakesTheHighestFittingLevel : Obligations.BoostTakesTheHighestFittingLevel := by
  intro s
  refine ⟨finalLevel s.work, rfl, fun hb => ?_, fun hb => ?_, fun h => ?_⟩
  · simp [finalLevel, hb]
  · rw [finalLevel, if_pos hb]
    exact boostLevel_cases _ _ _
  · have hfinal := finalLevel_isFinal h
    exact ⟨hfinal.not_below, hfinal.fits h⟩

end Sys2Proof.Machine
end

section
/-! PROOFS. The Codeword Assembler (spec/43_codeword_assembler.md): packing undoes the bit view of bytes, the pad
codewords alternate, and S4 pads the stream to the capacity (O23). -/

namespace Sys2Proof.Machine

/-! ### Packing -/

theorem bitsValue_concat (bits : List Bool) (b : Bool) : bitsValue (bits ++ [b]) = 2 * bitsValue bits + b.toNat := by
  simp [bitsValue]

/-- Doubling a number and adding a bit appends that bit. -/
theorem bitsMSB_double (v n : Nat) (b : Bool) : bitsMSB (2 * v + b.toNat) (n + 1) = bitsMSB v n ++ [b] := by
  induction n with
  | zero => cases b <;> simp [bitsMSB]
  | succ n ih =>
    have hb := b.toNat_lt
    have hhalf : (2 * v + b.toNat) / 2 = v := by omega
    rw [bitsMSB, ih, bitsMSB, Nat.testBit_succ, hhalf, List.cons_append]

/-- The bits of a sequence's number are the sequence (R14). -/
theorem bitsMSB_bitsValue (bits : List Bool) : bitsMSB (bitsValue bits) bits.length = bits := by
  induction bits using List.reverseRecOn with
  | nil => rfl
  | append_singleton bits b ih => rw [bitsValue_concat, List.length_append, List.length_singleton, bitsMSB_double, ih]

theorem bitsValue_lt (bits : List Bool) : bitsValue bits < 2 ^ bits.length := by
  induction bits using List.reverseRecOn with
  | nil => decide
  | append_singleton bits b ih =>
    have hb := b.toNat_lt
    rw [bitsValue_concat, List.length_append, List.length_singleton, Nat.pow_succ]
    omega

theorem byteBits_bitsValue {bits : List Bool} (h : bits.length = 8) :
    byteBits (BitVec.ofNat 8 (bitsValue bits)) = bits := by
  have hlt := bitsValue_lt bits
  rw [h] at hlt
  rw [byteBits, BitVec.toNat_ofNat, Nat.mod_eq_of_lt hlt, ← h, bitsMSB_bitsValue]

theorem pack8_length (bits : List Bool) (n : Nat) : (pack8 bits n).length = n := by
  induction n generalizing bits with
  | zero => rfl
  | succ n ih => rw [pack8, List.length_cons, ih]

/-- A sequence of whole bytes is the bits of its packed codewords (R167). -/
theorem bytesBits_pack8 {bits : List Bool} {n : Nat} (h : bits.length = 8 * n) : bytesBits (pack8 bits n) = bits := by
  induction n generalizing bits with
  | zero => exact (List.length_eq_zero_iff.mp h).symm
  | succ n ih =>
    have hbyte : (bits.take 8).length = 8 := by rw [List.length_take]; omega
    have hrest : (bits.drop 8).length = 8 * n := by rw [List.length_drop]; omega
    rw [pack8, bytesBits_cons, byteBits_bitsValue hbyte, ih hrest, List.take_append_drop]

/-! ### Padding -/

/-- A pad codeword is the first or its XOR with 0xFD, by the parity of its place (R166). -/
theorem padCodewords_getElem? {n i : Nat} (p : Byte) (h : i < n) :
    (padCodewords n p)[i]? = some (if i % 2 = 0 then p else p ^^^ 0xFD) := by
  induction n generalizing i p with
  | zero => omega
  | succ n ih =>
    cases i with
    | zero => rfl
    | succ i =>
      have hback : p ^^^ 0xFD ^^^ 0xFD = p := by rw [BitVec.xor_assoc, BitVec.xor_self, BitVec.xor_zero]
      rw [padCodewords, List.getElem?_cons_succ, ih _ (by omega), hback]
      obtain hi | hi := Nat.mod_two_eq_zero_or_one i
      · rw [if_pos hi, if_neg (by omega)]
      · rw [if_neg (by omega), if_pos (by omega)]

/-- Settles O23: S4 packs the padded stream, whose pad codewords alternate and whose length is the capacity. -/
theorem asmPadsTheStreamToCapacity : Obligations.AsmPadsTheStreamToCapacity := by
  intro s hc hfit
  have hlen : (padStream (dataCapacityBits s.work.ver s.work.ecl) (dataStream s.work.ver s.work.segs)).length
      = dataCapacityBits s.work.ver s.work.ecl := padStream_length hfit
  -- `execS4Asm_eq` speaks of a state whose working registers have just been set; `s` is the one set to its own.
  refine ⟨_, streamCodewords s.work.ver s.work.ecl s.work.segs, padCodewords _ 0xEC, execS4Asm_eq s.stage s hc hfit,
    ⟨rfl, hlen⟩, fun i hi => ?_, bytesBits_pack8 hlen, pack8_length _ _, fun g => rfl,
    fun v n k hk => ⟨bitsMSB_length v n, bitsMSB_getElem? v hk⟩⟩
  rw [padCodewords_length] at hi
  exact padCodewords_getElem? 0xEC hi

end Sys2Proof.Machine
end

section
/-! PROOFS. The field GF(256) of spec/44_reed_solomon.md R170, R171 (O24): additive maps that commute with the shift by
0x02 are multiplications, and that gives the ring laws of GfMul. -/

namespace Sys2Proof.Machine

/-! ### Sums of field elements -/

/-- Four summands in pairs, the pairs exchanged. -/
theorem xor_xor_xor_comm (a b c d : Byte) : a ^^^ b ^^^ (c ^^^ d) = a ^^^ c ^^^ (b ^^^ d) := by ac_rfl

/-- The shift by 0x02 is additive: overflow is the exclusive or of the overflows. -/
theorem gfDouble_xor (a b : Byte) : gfDouble (a ^^^ b) = gfDouble a ^^^ gfDouble b := by
  rw [gfDouble, gfDouble, gfDouble, BitVec.shiftLeft_xor_distrib, xor_xor_xor_comm (a <<< 1), BitVec.msb_xor]
  congr 1
  cases a.msb <;> cases b.msb <;> rfl

/-- The shift is the doubling of R170, reduced by the polynomial 0x11D. -/
theorem gfDouble_eq_reduced : ∀ b : Byte,
    gfDouble b = BitVec.ofNat 8 (if b.toNat < 128 then 2 * b.toNat else 2 * b.toNat ^^^ 0x11D) := by decide

/-! ### Additive maps -/

/-- A map of field elements that is additive and commutes with the shift by 0x02: a map linear over GF(256). -/
structure GfLinear (f : Byte → Byte) : Prop where
  map_xor    : ∀ a b, f (a ^^^ b) = f a ^^^ f b
  map_double : ∀ a, f (gfDouble a) = gfDouble (f a)

theorem GfLinear.map_zero {f : Byte → Byte} (hf : GfLinear f) : f 0 = 0 := by
  have h := hf.map_xor 0 0
  rwa [BitVec.xor_self, BitVec.xor_self] at h

/-- A linear map goes through a round of R171's loop. -/
theorem GfLinear.map_gfMulStep {f : Byte → Byte} (hf : GfLinear f) (a b z : Byte) (i : Nat) :
    f (gfMulStep a b z i) = gfMulStep (f a) b (f z) i := by
  rw [gfMulStep, hf.map_xor, hf.map_double, gfMulStep]
  split
  · rfl
  · rw [hf.map_zero]

/-- A linear map goes through the whole loop, so through its first factor. -/
theorem GfLinear.map_gfMul {f : Byte → Byte} (hf : GfLinear f) (a b : Byte) : f (gfMul a b) = gfMul (f a) b := by
  have hloop : ∀ (is : List Nat) z, f (is.foldl (gfMulStep a b) z) = is.foldl (gfMulStep (f a) b) (f z) := by
    intro is
    induction is with
    | nil => exact fun z => rfl
    | cons i is ih => exact fun z => by rw [List.foldl_cons, ih, hf.map_gfMulStep, List.foldl_cons]
  rw [gfMul, hloop, hf.map_zero, gfMul]

theorem gfMulStep_xor (a a' b z z' : Byte) (i : Nat) :
    gfMulStep (a ^^^ a') b (z ^^^ z') i = gfMulStep a b z i ^^^ gfMulStep a' b z' i := by
  rw [gfMulStep, gfDouble_xor, gfMulStep, gfMulStep, xor_xor_xor_comm]
  split
  · rfl
  · exact congrArg _ BitVec.xor_self.symm

/-- The product is linear in its first factor. -/
theorem gfMul_linear_left (b : Byte) : GfLinear fun a => gfMul a b := by
  have hdouble : GfLinear gfDouble := ⟨gfDouble_xor, fun _ => rfl⟩
  refine ⟨fun a a' => ?_, fun a => (hdouble.map_gfMul a b).symm⟩
  have hloop : ∀ (is : List Nat) z z', is.foldl (gfMulStep (a ^^^ a') b) (z ^^^ z')
      = is.foldl (gfMulStep a b) z ^^^ is.foldl (gfMulStep a' b) z' := by
    intro is
    induction is with
    | nil => exact fun z z' => rfl
    | cons i is ih => exact fun z z' => by simp only [List.foldl_cons, gfMulStep_xor, ih]
  exact hloop _ 0 0

/-! ### The laws of the product -/

@[simp] theorem gfMul_one_left : ∀ b : Byte, gfMul 1 b = b := by decide

/-- A linear map is the multiplication by its value at 1. -/
theorem GfLinear.eq_gfMul {f : Byte → Byte} (hf : GfLinear f) (b : Byte) : f b = gfMul (f 1) b := by
  rw [← hf.map_gfMul, gfMul_one_left]

/-- `fun a => gfMul a b` is the multiplication by its value at 1, which is b. -/
theorem gfMul_comm (a b : Byte) : gfMul a b = gfMul b a := by
  have h := (gfMul_linear_left b).eq_gfMul a
  rwa [gfMul_one_left] at h

theorem gfMul_assoc (a b c : Byte) : gfMul (gfMul a b) c = gfMul a (gfMul b c) := by
  rw [gfMul_comm a b, (gfMul_linear_left c).map_gfMul b a, gfMul_comm]

theorem gfMul_left_comm (a b c : Byte) : gfMul a (gfMul b c) = gfMul b (gfMul a c) := by
  rw [← gfMul_assoc, gfMul_comm a b, gfMul_assoc]

theorem gfMul_xor_left (a b c : Byte) : gfMul (a ^^^ b) c = gfMul a c ^^^ gfMul b c := (gfMul_linear_left c).map_xor a b

theorem gfMul_xor_right (a b c : Byte) : gfMul a (b ^^^ c) = gfMul a b ^^^ gfMul a c := by
  rw [gfMul_comm, gfMul_xor_left, gfMul_comm b, gfMul_comm c]

@[simp] theorem gfMul_zero_left (b : Byte) : gfMul 0 b = 0 := (gfMul_linear_left b).map_zero

@[simp] theorem gfMul_zero_right (a : Byte) : gfMul a 0 = 0 := by rw [gfMul_comm, gfMul_zero_left]

/-- 0x02 is the shift of 1, so its product is the shift. -/
theorem gfMul_two_left (b : Byte) : gfMul 2 b = gfDouble b := by
  have h := (gfMul_linear_left b).map_double 1
  rwa [gfMul_one_left] at h

/-! ### No zero divisors

The 256th power is linear and keeps 1, so `a ^ 256 = a`. Then `a ^ 255` is an idempotent, and the only idempotents are 0
and 1: a non-zero `a` has `a ^ 255 = 1`. -/

/-- The square, which generates the automorphisms of the field. -/
def gfSquare (a : Byte) : Byte := gfMul a a

theorem gfSquare_mul (a b : Byte) : gfSquare (gfMul a b) = gfMul (gfSquare a) (gfSquare b) := by
  simp only [gfSquare, gfMul_assoc, gfMul_left_comm b]

/-- Squares add: the two mixed products cancel. -/
theorem gfSquare_xor (a b : Byte) : gfSquare (a ^^^ b) = gfSquare a ^^^ gfSquare b := by
  have hmixed : gfMul a b ^^^ gfMul b a = 0 := by rw [gfMul_comm, BitVec.xor_self]; rfl
  calc gfSquare (a ^^^ b) = gfSquare a ^^^ gfSquare b ^^^ (gfMul a b ^^^ gfMul b a) := by
        simp only [gfSquare, gfMul_xor_left, gfMul_xor_right]; ac_rfl
    _ = gfSquare a ^^^ gfSquare b := by rw [hmixed]; exact BitVec.xor_zero

theorem gfSquare_iterate_mul (n : Nat) (a b : Byte) :
    gfSquare^[n] (gfMul a b) = gfMul (gfSquare^[n] a) (gfSquare^[n] b) := by
  induction n with
  | zero => rfl
  | succ n ih => simp only [Function.iterate_succ_apply', ih, gfSquare_mul]

theorem gfSquare_iterate_xor (n : Nat) (a b : Byte) :
    gfSquare^[n] (a ^^^ b) = gfSquare^[n] a ^^^ gfSquare^[n] b := by
  induction n with
  | zero => rfl
  | succ n ih => simp only [Function.iterate_succ_apply', ih, gfSquare_xor]

/-- Eight squarings are the identity, since they keep 0x02. -/
theorem gfSquare_iterate_eight (a : Byte) : gfSquare^[8] a = a := by
  have htwo : gfSquare^[8] 2 = 2 := by decide +kernel
  have hone : gfSquare^[8] 1 = 1 := by decide +kernel
  have hlinear : GfLinear gfSquare^[8] :=
    ⟨gfSquare_iterate_xor 8, fun a => by rw [← gfMul_two_left, gfSquare_iterate_mul, htwo, gfMul_two_left]⟩
  rw [hlinear.eq_gfMul, hone, gfMul_one_left]

theorem gfSquare_eq_self : ∀ e : Byte, gfSquare e = e → e = 0 ∨ e = 1 := by decide +kernel

/-- `a` to the power `2 ^ n - 1`. -/
def gfPowOnes (a : Byte) : Nat → Byte
  | 0 => 1
  | n + 1 => gfMul a (gfSquare (gfPowOnes a n))

theorem gfMul_gfPowOnes (a : Byte) (n : Nat) : gfMul a (gfPowOnes a n) = gfSquare^[n] a := by
  induction n with
  | zero => rw [gfPowOnes, gfMul_comm, gfMul_one_left]; rfl
  | succ n ih => rw [Function.iterate_succ_apply', ← ih, gfSquare_mul, gfSquare, gfMul_assoc, gfPowOnes]

/-- A non-zero element has its power 254 as an inverse. -/
theorem exists_gfMul_eq_one {a : Byte} (ha : a ≠ 0) : ∃ c, gfMul c a = 1 := by
  have hpow : ∃ c, gfMul a (gfMul c a) = a :=
    ⟨gfSquare (gfPowOnes a 7), by rw [gfMul_comm _ a, ← gfPowOnes, gfMul_gfPowOnes, gfSquare_iterate_eight]⟩
  obtain ⟨c, hc⟩ := hpow
  have hidem : gfSquare (gfMul c a) = gfMul c a := by rw [gfSquare, gfMul_assoc, hc]
  refine ⟨c, (gfSquare_eq_self _ hidem).resolve_left fun hzero => ha ?_⟩
  rw [← hc, hzero, gfMul_zero_right]

/-- An element that has an inverse divides zero only by zero. -/
theorem gfMul_eq_zero {a b : Byte} (h : gfMul a b = 0) : a = 0 ∨ b = 0 := by
  refine or_iff_not_imp_left.mpr fun ha => ?_
  obtain ⟨c, hc⟩ := exists_gfMul_eq_one ha
  calc b = gfMul (gfMul c a) b := by rw [hc, gfMul_one_left]
    _ = 0 := by rw [gfMul_assoc, h, gfMul_zero_right]

/-- Settles O24: the laws follow from linearity, and a non-zero element has an inverse. -/
theorem gfMulIsAFieldProduct : Obligations.GfMulIsAFieldProduct := fun a b c =>
  ⟨gfMul_comm a b, gfMul_assoc a b c, gfMul_xor_right a b c, gfMul_one_left b, gfMul_zero_left b,
    (gfMul_two_left b).trans (gfDouble_eq_reduced b), gfMul_eq_zero⟩

end Sys2Proof.Machine
end

section
/-! PROOFS. The divisor and the remainder (spec/44_reed_solomon.md R172, R173, R178, O25): what their loops do to the
values of polynomials. -/

namespace Sys2Proof.Machine

/-! ### Values of polynomials -/

/-- Horner's rule over further coefficients `p`, from the value `acc` of the coefficients before them. -/
def gfEvalFrom (x acc : Byte) (p : List Byte) : Byte := p.foldl (fun acc c => gfMul acc x ^^^ c) acc

theorem gfEval_eq_gfEvalFrom (p : List Byte) (x : Byte) : gfEval p x = gfEvalFrom x 0 p := rfl

@[simp] theorem gfEvalFrom_nil (x acc : Byte) : gfEvalFrom x acc [] = acc := rfl

@[simp] theorem gfEvalFrom_cons (x acc c : Byte) (p : List Byte) :
    gfEvalFrom x acc (c :: p) = gfEvalFrom x (gfMul acc x ^^^ c) p := rfl

@[simp] theorem gfEvalFrom_append (x acc : Byte) (p q : List Byte) :
    gfEvalFrom x acc (p ++ q) = gfEvalFrom x (gfEvalFrom x acc p) q := List.foldl_append

theorem gfEval_cons (c : Byte) (p : List Byte) (x : Byte) : gfEval (c :: p) x = gfEvalFrom x c p := by
  rw [gfEval_eq_gfEvalFrom, gfEvalFrom_cons, gfMul_zero_left]
  exact congrArg (gfEvalFrom x · p) BitVec.zero_xor

theorem gfEvalFrom_zeros (x : Byte) (n : Nat) : gfEvalFrom x 0 (List.replicate n 0) = 0 := by
  induction n with
  | zero => rfl
  | succ n ih => rwa [List.replicate_succ, gfEvalFrom_cons, gfMul_zero_left]

/-- The value of a sum is the sum of the values. -/
theorem gfEvalFrom_zipWith_xor (x a b : Byte) {p q : List Byte} (h : p.length = q.length) :
    gfEvalFrom x (a ^^^ b) (List.zipWith (· ^^^ ·) p q) = gfEvalFrom x a p ^^^ gfEvalFrom x b q := by
  induction p generalizing q a b with
  | nil => obtain rfl := List.length_eq_zero_iff.mp h.symm; rfl
  | cons c p ih =>
    cases q with
    | nil => simp at h
    | cons d q =>
      rw [List.zipWith_cons_cons, gfEvalFrom_cons, gfMul_xor_left, xor_xor_xor_comm]
      exact ih _ _ (Nat.succ.inj h)

/-- The value of a multiple is the multiple of the value. -/
theorem gfEvalFrom_map_gfMul (x a f : Byte) (p : List Byte) :
    gfEvalFrom x (gfMul a f) (p.map (gfMul · f)) = gfMul (gfEvalFrom x a p) f := by
  induction p generalizing a with
  | nil => rfl
  | cons c p ih =>
    rw [List.map_cons, gfEvalFrom_cons, gfMul_assoc, gfMul_comm f, ← gfMul_assoc, ← gfMul_xor_left]
    exact ih _

/-! ### The remainder -/

/-- One codeword taken in: the register shifted by one place, plus the multiple of the divisor by the factor. -/
theorem remainderStep_cons (div rem : List Byte) (r b : Byte) :
    remainderStep div (r :: rem) b = List.zipWith (· ^^^ ·) (rem ++ [0]) (div.map (gfMul · (b ^^^ r))) := by
  rw [List.zipWith_map_right]
  rfl

theorem remainderStep_length {div rem : List Byte} (b : Byte) (hdiv : div ≠ []) (h : rem.length = div.length) :
    (remainderStep div rem b).length = div.length := by
  have hpos := List.length_pos_iff.mpr hdiv
  simp only [remainderStep, List.length_zipWith, List.length_append, List.length_drop, List.length_singleton]
  omega

theorem foldl_remainderStep_length {div : List Byte} (hdiv : div ≠ []) (data : List Byte) {rem : List Byte}
    (h : rem.length = div.length) : (data.foldl (remainderStep div) rem).length = div.length := by
  induction data generalizing rem with
  | nil => exact h
  | cons b data ih => exact ih (remainderStep_length b hdiv h)

theorem rsRemainder_length (data : List Byte) {div : List Byte} (hdiv : div ≠ []) :
    (rsRemainder data div).length = div.length := foldl_remainderStep_length hdiv data List.length_replicate

/-- Taking in the register's own first codeword shifts the register, since the factor is 0. -/
theorem remainderStep_self {div rem : List Byte} (r : Byte) (h : rem.length + 1 = div.length) :
    remainderStep div (r :: rem) r = rem ++ [0] := by
  refine List.ext_getElem (by simp [remainderStep_cons, h]) fun i _ _ => ?_
  have hzero (d : Byte) : gfMul d 0#8 = 0#8 := gfMul_zero_right d
  simp [remainderStep_cons, hzero]

/-- Taking in the register's own codewords leaves the register zero. -/
theorem foldl_remainderStep_self {div rem : List Byte} {n : Nat} (h : rem.length + n = div.length) :
    rem.foldl (remainderStep div) (rem ++ List.replicate n 0) = List.replicate div.length 0 := by
  induction rem generalizing n with
  | nil => rw [← h, List.length_nil, Nat.zero_add]; rfl
  | cons r rem ih =>
    rw [List.length_cons] at h
    rw [List.foldl_cons, List.cons_append, remainderStep_self r (by simp; omega), List.append_assoc,
      ← List.replicate_succ']
    exact ih (by omega)

/-- A block followed by its remainder has remainder zero (R178). -/
theorem rsRemainder_append_rsRemainder (data : List Byte) {div : List Byte} (hdiv : div ≠ []) :
    rsRemainder (data ++ rsRemainder data div) div = List.replicate div.length 0 := by
  have h := foldl_remainderStep_self (n := 0) (rsRemainder_length data hdiv)
  rw [List.replicate_zero, List.append_nil] at h
  rwa [rsRemainder, List.foldl_append]

/-- At a root of the divisor, taking in a codeword multiplies the value of the data and the register by `x`. -/
theorem gfEvalFrom_remainderStep {x : Byte} {div : List Byte} (hroot : gfEvalFrom x 1 div = 0) (acc b r : Byte)
    {rem : List Byte} (h : rem.length + 1 = div.length) :
    gfEvalFrom x (gfMul acc x ^^^ b) (remainderStep div (r :: rem) b) = gfMul (gfEvalFrom x acc (r :: rem)) x := by
  have hsplit : gfMul acc x ^^^ b = gfMul acc x ^^^ r ^^^ gfMul 1 (b ^^^ r) := by
    rw [gfMul_one_left, BitVec.xor_comm b, BitVec.xor_assoc, ← BitVec.xor_assoc r, BitVec.xor_self, BitVec.zero_xor]
  rw [remainderStep_cons, hsplit, gfEvalFrom_zipWith_xor _ _ _ (by simpa using h), gfEvalFrom_map_gfMul, hroot,
    gfMul_zero_left, gfEvalFrom_append]
  simp

/-- At a root of the divisor, data and register keep their value zero. -/
theorem gfEvalFrom_foldl_remainderStep {x : Byte} {div : List Byte} (hdiv : div ≠ [])
    (hroot : gfEvalFrom x 1 div = 0) (data : List Byte) {acc : Byte} {rem : List Byte} (hlen : rem.length = div.length)
    (h : gfEvalFrom x acc rem = 0) :
    gfEvalFrom x (gfEvalFrom x acc data) (data.foldl (remainderStep div) rem) = 0 := by
  induction data generalizing acc rem with
  | nil => exact h
  | cons b data ih =>
    refine ih (remainderStep_length b hdiv hlen) ?_
    cases rem with
    | nil => exact absurd (List.length_eq_zero_iff.mp hlen.symm) hdiv
    | cons r rem => rw [gfEvalFrom_remainderStep hroot acc b r hlen, h, gfMul_zero_left]

/-- A block followed by its remainder has the roots of the divisor (R178). -/
theorem gfEval_append_rsRemainder {x : Byte} {div : List Byte} (hdiv : div ≠ []) (hroot : gfEval (1 :: div) x = 0)
    (data : List Byte) : gfEval (data ++ rsRemainder data div) x = 0 := by
  rw [gfEval_cons] at hroot
  rw [gfEval_eq_gfEvalFrom, gfEvalFrom_append]
  exact gfEvalFrom_foldl_remainderStep hdiv hroot data List.length_replicate (gfEvalFrom_zeros x _)

/-! ### The divisor -/

theorem divisorPass_cons_cons (root a b : Byte) (p : List Byte) :
    divisorPass root (a :: b :: p) = (gfMul a root ^^^ b) :: divisorPass root (b :: p) := rfl

@[simp] theorem divisorPass_length (root : Byte) (p : List Byte) : (divisorPass root p).length = p.length := by
  fun_induction divisorPass root p with simp_all

theorem divisorLoop_length (n : Nat) (root : Byte) (p : List Byte) : (divisorLoop n root p).length = p.length := by
  induction n generalizing root p with
  | zero => rfl
  | succ n ih => rw [divisorLoop, ih, divisorPass_length]

theorem rsDivisor_length {e : Nat} (h : 0 < e) : (rsDivisor e).length = e := by
  rw [rsDivisor, divisorLoop_length, List.length_append, List.length_replicate, List.length_singleton]
  omega

theorem rsDivisor_ne_nil {e : Nat} (h : 0 < e) : rsDivisor e ≠ [] :=
  List.ne_nil_of_length_pos ((rsDivisor_length h).symm ▸ h)

/-- A pass on a polynomial whose highest coefficient is 0 multiplies its value by `x - root`. The general form: the
coefficients from `a` on, where `acc` is the value of those before. -/
theorem gfEvalFrom_divisorPass (x root acc a : Byte) (p : List Byte) :
    gfEvalFrom x (gfMul acc root ^^^ (gfMul acc x ^^^ a)) (divisorPass root (a :: p))
      = gfMul (gfEvalFrom x acc (a :: p)) (x ^^^ root) := by
  induction p generalizing acc a with
  | nil =>
    simp only [divisorPass, gfEvalFrom_cons, gfEvalFrom_nil, gfMul_xor_left, gfMul_xor_right, gfMul_assoc,
      gfMul_comm root x]
    ac_rfl
  | cons b p ih =>
    rw [divisorPass_cons_cons, gfEvalFrom_cons, gfEvalFrom_cons _ acc, ← ih]
    congr 1
    simp only [gfMul_xor_left, gfMul_assoc, gfMul_comm root x]
    ac_rfl

/-- A pass on a polynomial of lower degree multiplies its value by `x - root`. -/
theorem gfEval_divisorPass (x root : Byte) (p : List Byte) :
    gfEval (divisorPass root (0 :: p)) x = gfMul (gfEval (0 :: p) x) (x ^^^ root) := by
  have h := gfEvalFrom_divisorPass x root 0 0 p
  rwa [gfMul_zero_left, gfMul_zero_left] at h

/-- A pass on a monic polynomial of lower degree gives a monic polynomial, one degree higher. -/
theorem divisorPass_monic (root : Byte) (n : Nat) (q : List Byte) :
    divisorPass root (0 :: (List.replicate n 0 ++ 1 :: q))
      = List.replicate n 0 ++ 1 :: divisorPass root (1 :: q) := by
  induction n with
  | zero => rw [List.replicate_zero, List.nil_append, divisorPass_cons_cons, gfMul_zero_left]; rfl
  | succ n ih => rw [List.replicate_succ, List.cons_append, divisorPass_cons_cons, ih, gfMul_zero_left]; rfl

theorem divisorLoop_monic (n : Nat) (root : Byte) (q : List Byte) :
    ∃ p, divisorLoop n root (List.replicate n 0 ++ 1 :: q) = 1 :: p := by
  induction n generalizing root q with
  | zero => exact ⟨q, rfl⟩
  | succ n ih =>
    rw [divisorLoop, List.replicate_succ, List.cons_append, divisorPass_monic]
    exact ih _ _

/-- The lower coefficients of a pass do not depend on the highest one. -/
theorem divisorPass_tail (root : Byte) (p : List Byte) : (divisorPass root p).tail = divisorPass root p.tail := by
  fun_cases divisorPass root p <;> rfl

theorem divisorLoop_tail (n : Nat) (root : Byte) (p : List Byte) :
    (divisorLoop n root p).tail = divisorLoop n root p.tail := by
  induction n generalizing root p with
  | zero => rfl
  | succ n ih => rw [divisorLoop, ih, divisorPass_tail, divisorLoop]

/-- The divisor with its leading coefficient, which R172 drops, is the loop's result on all E + 1 coefficients. -/
theorem one_cons_rsDivisor {e : Nat} (h : 0 < e) : 1 :: rsDivisor e = divisorLoop e 1 (List.replicate e 0 ++ [1]) := by
  obtain ⟨p, hp⟩ := divisorLoop_monic e 1 []
  have htail : p = rsDivisor e := by
    rw [← List.tail_cons (a := 1) (as := p), ← hp, divisorLoop_tail, List.tail_append_of_ne_nil (by simp; omega),
      List.tail_replicate, rsDivisor]
  rw [hp, htail]

/-- The loop keeps the roots of the polynomial it starts on and gives it the next powers of 0x02 as further roots. -/
theorem gfEval_divisorLoop {x : Byte} (n m : Nat) (q : List Byte)
    (h : gfEval (List.replicate n 0 ++ 1 :: q) x = 0 ∨ ∃ k, m ≤ k ∧ k < m + n ∧ x = gfPow k) :
    gfEval (divisorLoop n (gfPow m) (List.replicate n 0 ++ 1 :: q)) x = 0 := by
  induction n generalizing m q with
  | zero => exact h.elim id fun ⟨k, hlo, hhi, _⟩ => by omega
  | succ n ih =>
    rw [List.replicate_succ, List.cons_append] at h ⊢
    have hpass := gfEval_divisorPass x (gfPow m) (List.replicate n 0 ++ 1 :: q)
    rw [divisorPass_monic] at hpass
    rw [divisorLoop, divisorPass_monic]
    refine ih (m + 1) _ ?_
    obtain hroot | ⟨k, hlo, hhi, rfl⟩ := h
    · exact .inl (by rw [hpass, hroot, gfMul_zero_left])
    · obtain rfl | hne := eq_or_ne m k
      · exact .inl (by rw [hpass, BitVec.xor_self]; exact gfMul_zero_right _)
      · exact .inr ⟨k, by omega, by omega, rfl⟩

/-- The first E powers of 0x02 are roots of the divisor of degree E (R172). -/
theorem gfEval_rsDivisor {e i : Nat} (h : i < e) : gfEval (1 :: rsDivisor e) (gfPow i) = 0 := by
  rw [one_cons_rsDivisor (by omega)]
  exact gfEval_divisorLoop e 0 [] (.inr ⟨i, by omega, by omega, rfl⟩)

/-- Settles O25: the remainder's register ends at zero on a whole block, and the roots of the divisor of any degree are
roots of the block. -/
theorem blockWithItsRemainderIsDivisible : Obligations.BlockWithItsRemainderIsDivisible := by
  refine ⟨fun data div hdiv => rsRemainder_append_rsRemainder data hdiv, fun e he => ?_⟩
  have hpos : ∀ e ∈ [7, 10, 13, 15, 16, 17, 18, 20, 22, 24, 26, 28, 30], 0 < e := by decide
  have he := hpos e he
  exact ⟨rsDivisor_length he, fun i hi =>
    ⟨gfEval_rsDivisor hi, gfEval_append_rsRemainder (rsDivisor_ne_nil he) (gfEval_rsDivisor hi)⟩⟩

end Sys2Proof.Machine
end

section
/-! PROOFS. Block partition and interleaving (spec/44_reed_solomon.md R174 to R180, O26, O27): cutting and joining lists
of codewords, and the arithmetic of the block lengths. -/

namespace Sys2Proof.Machine

/-! ### Block lengths -/

/-- In every version and level there is a block, a block has error-correction codewords, and those fit a short block
(R143, R144). -/
theorem blockTable_bounds : ∀ v ∈ List.range' 1 40, ∀ l ∈ allLevels,
    0 < numBlocks l v ∧ 0 < eccPerBlock l v ∧ eccPerBlock l v ≤ rawCodewords v / numBlocks l v := by decide

theorem mem_allLevels : ∀ l : Level, l ∈ allLevels := by rintro (_ | _ | _ | _) <;> decide

theorem block_bounds {v : Nat} (l : Level) (hlo : 1 ≤ v) (hhi : v ≤ 40) :
    0 < numBlocks l v ∧ 0 < eccPerBlock l v ∧ eccPerBlock l v ≤ rawCodewords v / numBlocks l v :=
  blockTable_bounds v (List.mem_range'_1.mpr ⟨hlo, by omega⟩) l (mem_allLevels l)

/-- The data codewords are a short block's for each block, and one more for each long block (R174). -/
theorem dataCodewords_eq_blocks {v : Nat} {l : Level} (hfit : eccPerBlock l v ≤ rawCodewords v / numBlocks l v) :
    dataCodewords v l
      = (rawCodewords v / numBlocks l v - eccPerBlock l v) * numBlocks l v + rawCodewords v % numBlocks l v := by
  have hdiv := Nat.div_add_mod' (rawCodewords v) (numBlocks l v)
  have hmul := Nat.mul_le_mul_right (numBlocks l v) hfit
  rw [dataCodewords, Nat.sub_mul]
  omega

theorem sum_lengths (q m n : Nat) :
    ((List.range n).map fun j => q + if j < m then 0 else 1).sum = q * n + (n - m) := by
  induction n with
  | zero => simp
  | succ n ih =>
    rw [List.range_succ, List.map_append, List.sum_append, ih, List.map_singleton, List.sum_singleton, Nat.mul_succ]
    split <;> omega

/-- The blocks' data lengths add up to the number of data codewords (R174). -/
theorem sum_blockDataLen {v : Nat} {l : Level} (hpos : 0 < numBlocks l v)
    (hfit : eccPerBlock l v ≤ rawCodewords v / numBlocks l v) :
    ((List.range (numBlocks l v)).map (blockDataLen v l)).sum = dataCodewords v l := by
  have hmod := Nat.mod_lt (rawCodewords v) hpos
  have hsum := sum_lengths (shortLen v l - eccPerBlock l v) (numShort v l) (numBlocks l v)
  rw [dataCodewords_eq_blocks hfit, ← shortLen, ← Nat.sub_sub_self hmod.le]
  exact hsum

/-! ### S5 RSENC -/

@[simp] theorem cutBlocks_length (div : List Byte) (ns : List Nat) (dcw : List Byte) :
    (cutBlocks div ns dcw).length = ns.length := by
  induction ns generalizing dcw with
  | nil => rfl
  | cons n ns ih => rw [cutBlocks, List.length_cons, ih, List.length_cons]

/-- The blocks together hold the codewords they were cut from, where their lengths reach that far. -/
theorem cutBlocks_data_flatten (div : List Byte) {ns : List Nat} {dcw : List Byte} (h : dcw.length ≤ ns.sum) :
    ((cutBlocks div ns dcw).map Block.data).flatten = dcw := by
  induction ns generalizing dcw with
  | nil => exact (List.length_eq_zero_iff.mp (Nat.le_zero.mp h)).symm
  | cons n ns ih =>
    rw [List.sum_cons] at h
    rw [cutBlocks, List.map_cons, List.flatten_cons, ih (by rw [List.length_drop]; omega), List.take_append_drop]

/-- Each block has the length asked for, where the codewords reach that far, and the remainder of its data. -/
theorem cutBlocks_getElem? {div : List Byte} {ns : List Nat} {dcw : List Byte} (h : ns.sum ≤ dcw.length) {j : Nat}
    {k : Block} (hk : (cutBlocks div ns dcw)[j]? = some k) :
    ns[j]? = some k.data.length ∧ k.ecc = rsRemainder k.data div := by
  induction ns generalizing dcw j with
  | nil => simp [cutBlocks] at hk
  | cons n ns ih =>
    rw [List.sum_cons] at h
    cases j with
    | zero =>
      obtain rfl := Option.some.inj hk
      rw [List.getElem?_cons_zero, List.length_take, Nat.min_eq_left (by omega)]
      exact ⟨rfl, rfl⟩
    | succ j => exact ih (by rw [List.length_drop]; omega) hk

/-- Settles O26: S5 cuts the data codewords at the lengths of R174, which add up to their number. -/
theorem rsencSlicesIntoBlocks : Obligations.RsencSlicesIntoBlocks := by
  intro s hlo hhi hdcw
  obtain ⟨hblocks, hecc, hfit⟩ := block_bounds s.work.ecl hlo hhi
  have hsum := sum_blockDataLen hblocks hfit
  rw [← hdcw] at hsum
  refine ⟨makeBlocks s.work.ver s.work.ecl s.work.dcw, rfl, ?_, cutBlocks_data_flatten _ hsum.ge, fun j k hk => ?_⟩
  · rw [makeBlocks, cutBlocks_length, List.length_map, List.length_range]
  · obtain ⟨hlen, hrem⟩ := cutBlocks_getElem? hsum.le hk
    obtain ⟨_, hdata⟩ := List.getElem?_eq_some_iff.mp hlen
    rw [List.getElem_map, List.getElem_range] at hdata
    exact ⟨hdata.symm, hrem, by rw [hrem, rsRemainder_length _ (rsDivisor_ne_nil hecc), rsDivisor_length hecc]⟩

/-! ### Interleaving -/

theorem codewordsAt_append (ls ls' : List (List Byte)) (i : Nat) :
    codewordsAt (ls ++ ls') i = codewordsAt ls i ++ codewordsAt ls' i := List.filterMap_append

theorem codewordsAt_cons {l : List Byte} (ls : List (List Byte)) {i : Nat} (h : i < l.length) :
    codewordsAt (l :: ls) i = l[i] :: codewordsAt ls i := List.filterMap_cons_some (List.getElem?_eq_getElem h)

/-- Lists that all end before position i have no codeword there. -/
theorem codewordsAt_eq_nil {ls : List (List Byte)} {i : Nat} (h : ∀ l ∈ ls, l.length ≤ i) : codewordsAt ls i = [] :=
  List.filterMap_eq_nil_iff.mpr fun l hl => List.getElem?_eq_none (h l hl)

theorem codewordsAt_length {ls : List (List Byte)} {i : Nat} (h : ∀ l ∈ ls, i < l.length) :
    (codewordsAt ls i).length = ls.length := by
  induction ls with
  | nil => rfl
  | cons l ls ih =>
    rw [List.forall_mem_cons] at h
    rw [codewordsAt_cons ls h.1, List.length_cons, ih h.2, List.length_cons]

/-- Lists that all reach beyond position i have one codeword each there, in their order. -/
theorem codewordsAt_getElem? {ls : List (List Byte)} {i j : Nat} {l : List Byte} (h : ∀ l ∈ ls, i < l.length)
    (hj : ls[j]? = some l) : (codewordsAt ls i)[j]? = l[i]? := by
  induction ls generalizing j with
  | nil => cases hj
  | cons l' ls ih =>
    rw [List.forall_mem_cons] at h
    rw [codewordsAt_cons ls h.1]
    cases j with
    | zero =>
      obtain rfl := Option.some.inj hj
      exact (List.getElem?_eq_getElem h.1).symm
    | succ j => exact ih h.2 hj

theorem interleaveLists_succ (n : Nat) (ls : List (List Byte)) :
    interleaveLists (n + 1) ls = interleaveLists n ls ++ codewordsAt ls n := by
  rw [interleaveLists, List.range_succ, List.flatMap_append, List.flatMap_singleton, interleaveLists]

theorem interleaveLists_length {n : Nat} {ls : List (List Byte)} (h : ∀ l ∈ ls, n ≤ l.length) :
    (interleaveLists n ls).length = n * ls.length := by
  induction n with
  | zero => rw [Nat.zero_mul]; rfl
  | succ n ih =>
    rw [interleaveLists_succ, List.length_append, ih fun l hl => Nat.le_of_succ_le (h l hl), codewordsAt_length h,
      Nat.succ_mul]

theorem roundPlace_lt {i n j b : Nat} (hi : i < n) (hj : j < b) : i * b + j < n * b := by
  have hrow := Nat.mul_le_mul_right b hi
  rw [Nat.succ_mul] at hrow
  omega

/-- Of lists that all have n codewords, the interleaving puts codeword i of list j at place i·B + j (R176). -/
theorem interleaveLists_getElem? {n i j : Nat} {ls : List (List Byte)} {l : List Byte} (h : ∀ l ∈ ls, n ≤ l.length)
    (hi : i < n) (hj : ls[j]? = some l) : (interleaveLists n ls)[i * ls.length + j]? = l[i]? := by
  have hjlt : j < ls.length := (List.getElem?_eq_some_iff.mp hj).1
  induction n with
  | zero => omega
  | succ n ih =>
    have hn : ∀ l ∈ ls, n ≤ l.length := fun l hl => Nat.le_of_succ_le (h l hl)
    have hlen := interleaveLists_length hn
    rw [interleaveLists_succ]
    obtain hlt | rfl := Nat.lt_succ_iff_lt_or_eq.mp hi
    · rw [List.getElem?_append_left (hlen ▸ roundPlace_lt hlt hjlt), ih hn hlt]
    · rw [List.getElem?_append_right (by omega), hlen, Nat.add_sub_cancel_left]
      exact codewordsAt_getElem? h hj

/-! ### Short and long lists -/

/-- The lists have `q` codewords each, and those from number `m` on one more (R174). -/
def ShortThenLong (q m : Nat) (ls : List (List Byte)) : Prop :=
  ∀ j l, ls[j]? = some l → l.length = q + if j < m then 0 else 1

section
variable {q m : Nat} {ls : List (List Byte)} (h : ShortThenLong q m ls)
include h

theorem ShortThenLong.le_length : ∀ l ∈ ls, q ≤ l.length := by
  intro l hl
  obtain ⟨j, hj⟩ := List.mem_iff_getElem?.mp hl
  have hlen := h j l hj
  omega

theorem ShortThenLong.take_length : ∀ l ∈ ls.take m, l.length ≤ q := by
  intro l hl
  obtain ⟨j, hj⟩ := List.mem_iff_getElem?.mp hl
  rw [List.getElem?_take] at hj
  split at hj
  case isTrue hjm =>
    have hlen := h j l hj
    rw [if_pos hjm] at hlen
    exact hlen.le
  case isFalse => cases hj

theorem ShortThenLong.drop_length : ∀ l ∈ ls.drop m, q < l.length := by
  intro l hl
  obtain ⟨j, hj⟩ := List.mem_iff_getElem?.mp hl
  rw [List.getElem?_drop] at hj
  have hlen := h (m + j) l hj
  rw [if_neg (by omega)] at hlen
  omega

/-- The last data round skips the short lists. -/
theorem ShortThenLong.codewordsAt_last : codewordsAt ls q = codewordsAt (ls.drop m) q := by
  conv_lhs => rw [← List.take_append_drop m ls]
  rw [codewordsAt_append, codewordsAt_eq_nil h.take_length, List.nil_append]

theorem ShortThenLong.interleave_length : (interleaveLists (q + 1) ls).length = q * ls.length + (ls.length - m) := by
  rw [interleaveLists_succ, List.length_append, interleaveLists_length h.le_length, h.codewordsAt_last,
    codewordsAt_length h.drop_length, List.length_drop]

/-- Codeword i of list j stands at place i·B + j, where every list has one (R176). -/
theorem ShortThenLong.interleave_getElem? {i j : Nat} {l : List Byte} (hi : i < q) (hj : ls[j]? = some l) :
    (interleaveLists (q + 1) ls)[i * ls.length + j]? = l[i]? := by
  have hjlt : j < ls.length := (List.getElem?_eq_some_iff.mp hj).1
  have hlen := interleaveLists_length h.le_length
  rw [interleaveLists_succ, List.getElem?_append_left (hlen ▸ roundPlace_lt hi hjlt)]
  exact interleaveLists_getElem? h.le_length hi hj

/-- The last codewords of the long lists follow, in their order (R176). -/
theorem ShortThenLong.interleave_getElem?_last {j : Nat} {l : List Byte} (hm : m ≤ j) (hj : ls[j]? = some l) :
    (interleaveLists (q + 1) ls)[q * ls.length + (j - m)]? = l[q]? := by
  have hdrop : (ls.drop m)[j - m]? = some l := by rw [List.getElem?_drop, Nat.add_sub_cancel' hm, hj]
  have hlen := interleaveLists_length h.le_length
  rw [interleaveLists_succ, List.getElem?_append_right (by omega), hlen, Nat.add_sub_cancel_left, h.codewordsAt_last]
  exact codewordsAt_getElem? h.drop_length hdrop

end

/-! ### S6 ILV -/

/-- The blocks of a version and level: B of them, with the data lengths and the remainder length of R174. -/
structure BlocksFit (v : Nat) (l : Level) (blk : List Block) : Prop where
  length : blk.length = numBlocks l v
  parts  : ∀ j k, blk[j]? = some k → k.data.length = blockDataLen v l j ∧ k.ecc.length = eccPerBlock l v

/-- A codeword found in the first of two lists stands at the same place of their concatenation. -/
theorem getElem?_append_of_found {p d : List Byte} (q : List Byte) {n i : Nat} (h : p[n]? = d[i]?) (hi : i < d.length) :
    (p ++ q)[n]? = d[i]? := by
  have hn : n < p.length := by
    rw [List.getElem?_eq_getElem hi] at h
    exact (List.getElem?_eq_some_iff.mp h).1
  rw [List.getElem?_append_left hn, h]

section
variable {v : Nat} {l : Level} {blk : List Block} (h : BlocksFit v l blk)
include h

theorem BlocksFit.data_shortThenLong :
    ShortThenLong (shortLen v l - eccPerBlock l v) (numShort v l) (blk.map Block.data) := by
  intro j d hj
  rw [List.getElem?_map, Option.map_eq_some_iff] at hj
  obtain ⟨k, hk, rfl⟩ := hj
  exact (h.parts j k hk).1

theorem BlocksFit.ecc_length : ∀ c ∈ blk.map Block.ecc, c.length = eccPerBlock l v := by
  intro c hc
  obtain ⟨k, hk, rfl⟩ := List.mem_map.mp hc
  obtain ⟨j, hj⟩ := List.mem_iff_getElem?.mp hk
  exact (h.parts j k hj).2

/-- The data part holds every data codeword (R176, R177). -/
theorem BlocksFit.dataPart_length (hlo : 1 ≤ v) (hhi : v ≤ 40) :
    (interleaveLists (shortLen v l - eccPerBlock l v + 1) (blk.map Block.data)).length = dataCodewords v l := by
  obtain ⟨hpos, -, hfit⟩ := block_bounds l hlo hhi
  have hmod := Nat.mod_lt (rawCodewords v) hpos
  rw [h.data_shortThenLong.interleave_length, List.length_map, h.length, dataCodewords_eq_blocks hfit, numShort,
    Nat.sub_sub_self hmod.le, shortLen]

theorem BlocksFit.eccPart_length :
    (interleaveLists (eccPerBlock l v) (blk.map Block.ecc)).length = eccPerBlock l v * numBlocks l v := by
  rw [interleaveLists_length fun c hc => (h.ecc_length c hc).ge, List.length_map, h.length]

/-- The interleaved sequence has R codewords (R177). -/
theorem BlocksFit.interleave_length (hlo : 1 ≤ v) (hhi : v ≤ 40) : (interleave v l blk).length = rawCodewords v := by
  obtain ⟨-, -, hfit⟩ := block_bounds l hlo hhi
  have hle : eccPerBlock l v * numBlocks l v ≤ rawCodewords v :=
    (Nat.mul_le_mul_right _ hfit).trans (Nat.div_mul_le_self _ _)
  rw [interleave, List.length_append, h.dataPart_length hlo hhi, h.eccPart_length, dataCodewords,
    Nat.sub_add_cancel hle]

variable {j : Nat} {k : Block} (hk : blk[j]? = some k)
include hk

/-- Before the last data round, every block has a codeword in each round (R176). -/
theorem BlocksFit.interleave_data {i : Nat} (hi : i < shortLen v l - eccPerBlock l v) :
    (interleave v l blk)[i * numBlocks l v + j]? = k.data[i]? := by
  have hdata : (blk.map Block.data)[j]? = some k.data := by simp [hk]
  have hplace := h.data_shortThenLong.interleave_getElem? hi hdata
  rw [List.length_map, h.length] at hplace
  have hlen := (h.parts j k hk).1
  rw [blockDataLen] at hlen
  exact getElem?_append_of_found _ hplace (by omega)

/-- In the last data round only the long blocks have a codeword (R176). -/
theorem BlocksFit.interleave_lastData (hj : numShort v l ≤ j) :
    (interleave v l blk)[(shortLen v l - eccPerBlock l v) * numBlocks l v + (j - numShort v l)]?
      = k.data[shortLen v l - eccPerBlock l v]? := by
  have hdata : (blk.map Block.data)[j]? = some k.data := by simp [hk]
  have hplace := h.data_shortThenLong.interleave_getElem?_last hj hdata
  rw [List.length_map, h.length] at hplace
  have hlen := (h.parts j k hk).1
  rw [blockDataLen, if_neg (by omega)] at hlen
  exact getElem?_append_of_found _ hplace (by omega)

/-- The error-correction codewords follow the data codewords, by position (R176). -/
theorem BlocksFit.interleave_ecc (hlo : 1 ≤ v) (hhi : v ≤ 40) {i : Nat} (hi : i < eccPerBlock l v) :
    (interleave v l blk)[dataCodewords v l + i * numBlocks l v + j]? = k.ecc[i]? := by
  have hecc : (blk.map Block.ecc)[j]? = some k.ecc := by simp [hk]
  have hplace := interleaveLists_getElem? (fun c hc => (h.ecc_length c hc).ge) hi hecc
  rw [List.length_map, h.length] at hplace
  rw [interleave, Nat.add_assoc, List.getElem?_append_right (by rw [h.dataPart_length hlo hhi]; omega),
    h.dataPart_length hlo hhi, Nat.add_sub_cancel_left, hplace]

end

/-- Settles O27: the data parts are short lists and then long ones, and the error-correction parts have one length. -/
theorem ilvInterleavesByPosition : Obligations.IlvInterleavesByPosition := by
  intro s hlo hhi hblk hparts
  have h : BlocksFit s.work.ver s.work.ecl s.work.blk := ⟨hblk, hparts⟩
  exact ⟨interleave s.work.ver s.work.ecl s.work.blk, rfl, h.interleave_length hlo hhi, fun j k hk =>
    ⟨fun i hi => h.interleave_data hk hi, fun hj => h.interleave_lastData hk hj, fun i hi =>
      h.interleave_ecc hk hlo hhi hi⟩⟩

end Sys2Proof.Machine
end

section
/-! PROOFS. The function patterns of S7 (spec/45_function_patterns.md, O28, O29): what a drawing leaves in each module,
the cells of each pattern with their colours, and that patterns which share a module agree on it. -/

namespace Sys2Proof.Machine

theorem le_sideOf {v : Nat} (hlo : 1 ≤ v) : 21 ≤ sideOf v := by rw [sideOf]; omega

/-! ### What a drawing leaves in a module -/

theorem setFnAll_append (as bs : List (Nat × Nat × Bool)) (c : Canvas) :
    setFnAll (as ++ bs) c = setFnAll bs (setFnAll as c) := List.foldl_append

theorem mem_placesOf {cells : List (Nat × Nat × Bool)} {x y : Nat} :
    (x, y) ∈ placesOf cells ↔ ∃ b, (x, y, b) ∈ cells := by
  simp [placesOf]

theorem setFn_flag {c : Canvas} (hc : c.Square) (x y x' y' : Nat) (b : Bool) :
    (setFn x y b c).f.get x' y'
      = if x' = x ∧ y' = y ∧ x < c.size ∧ y < c.size then true else c.f.get x' y' := get_set _ _ _ _ _ _ _ hc.2

theorem setFn_colour {c : Canvas} (hc : c.Square) (x y x' y' : Nat) (b : Bool) :
    (setFn x y b c).m.get x' y'
      = if x' = x ∧ y' = y ∧ x < c.size ∧ y < c.size then b else c.m.get x' y' := get_set _ _ _ _ _ _ _ hc.1

/-- The flags after a drawing: those of its cells, and those from before. -/
theorem setFnAll_flag_iff {cells : List (Nat × Nat × Bool)} {c : Canvas} (hc : c.Square) (x y : Nat) :
    (setFnAll cells c).f.get x y = true
      ↔ ((x, y) ∈ placesOf cells ∧ x < c.size ∧ y < c.size) ∨ c.f.get x y = true := by
  induction cells generalizing c with
  | nil => simp [setFnAll, placesOf]
  | cons p rest ih =>
    have hstep : (setFn p.1 p.2.1 p.2.2 c).f.get x y = true
        ↔ ((x, y) = (p.1, p.2.1) ∧ x < c.size ∧ y < c.size) ∨ c.f.get x y = true := by
      rw [setFn_flag hc, Prod.mk.injEq]
      by_cases hp : x = p.1 ∧ y = p.2.1
      · obtain ⟨rfl, rfl⟩ := hp
        simp
      · rw [if_neg fun h => hp ⟨h.1, h.2.1⟩]
        simp [hp]
    refine (ih (hc.setFn p.1 p.2.1 p.2.2)).trans ?_
    rw [hstep]
    simp only [placesOf, List.map_cons, List.mem_cons, or_and_right, or_left_comm, or_assoc, setFn]

/-- The colour after a drawing: the one colour that the drawing's cells give the module, or, where they give none, the
colour from before. -/
theorem setFnAll_colour {cells : List (Nat × Nat × Bool)} {c : Canvas} (hc : c.Square) {x y : Nat} {b : Bool}
    (hx : x < c.size) (hy : y < c.size) (hcells : ∀ b', (x, y, b') ∈ cells → b' = b)
    (hbefore : (x, y) ∉ placesOf cells → c.m.get x y = b) : (setFnAll cells c).m.get x y = b := by
  induction cells generalizing c with
  | nil => exact hbefore List.not_mem_nil
  | cons p rest ih =>
    refine ih (hc.setFn p.1 p.2.1 p.2.2) hx hy (fun b' h => hcells b' (.tail _ h)) fun hrest => ?_
    rw [setFn_colour hc]
    by_cases hp : x = p.1 ∧ y = p.2.1
    · obtain ⟨rfl, rfl⟩ := hp
      rw [if_pos ⟨rfl, rfl, hx, hy⟩]
      exact hcells _ (.head _)
    · rw [if_neg fun h => hp ⟨h.1, h.2.1⟩]
      refine hbefore ?_
      simp only [placesOf, List.map_cons, List.mem_cons, Prod.mk.injEq, not_or]
      exact ⟨hp, hrest⟩

/-! ### Finder patterns (R192) -/

theorem mem_offsets {r : Nat} {d : Int} : d ∈ offsets r ↔ d.natAbs ≤ r := by
  simp only [offsets, List.bind_eq_flatMap, List.pure_def, List.mem_map, List.mem_flatMap, List.mem_range,
    List.mem_singleton]
  constructor
  · rintro ⟨_, ⟨i, hi, rfl⟩, rfl⟩
    omega
  · intro h
    exact ⟨d + r, ⟨(d + r).toNat, by omega, by omega⟩, by omega⟩

theorem mem_finderCells {n cx cy x y : Nat} {b : Bool} :
    (x, y, b) ∈ finderCells n cx cy
      ↔ (x < n ∧ ((x : Int) - cx).natAbs ≤ 4) ∧ (y < n ∧ ((y : Int) - cy).natAbs ≤ 4)
        ∧ b = (chebyshev (x - cx) (y - cy) != 2 && chebyshev (x - cx) (y - cy) != 4) := by
  simp only [finderCells, List.mem_flatMap, List.mem_filterMap, mem_offsets, finderCell, Option.ite_none_right_eq_some,
    Option.some.injEq, Prod.mk.injEq]
  constructor
  · rintro ⟨dy, hdy, dx, hdx, hin, hx, hy, rfl⟩
    obtain rfl : dx = x - cx := by omega
    obtain rfl : dy = y - cy := by omega
    exact ⟨⟨by omega, hdx⟩, ⟨by omega, hdy⟩, rfl⟩
  · rintro ⟨⟨hx, hdx⟩, ⟨hy, hdy⟩, rfl⟩
    exact ⟨y - cy, hdy, x - cx, hdx, by omega, by omega, by omega, rfl⟩

/-- A coordinate as its distance from the nearer border of a grid of side n, for one in the first or last eight. -/
def cornerFold (n a : Nat) : Nat := if a < 8 then a else n - 1 - a

/-- The colour of a finder's module by its distances from the corner of the grid, the same at all three corners. -/
def finderColour (n x y : Nat) : Bool :=
  let d := chebyshev ((cornerFold n x : Int) - 3) ((cornerFold n y : Int) - 3)
  d != 2 && d != 4

/-- The offset from a finder's centre, up to its sign, in one coordinate. -/
theorem natAbs_cornerFold {n c a : Nat} (hn : 21 ≤ n) (hc : c = 3 ∨ c = n - 4) (ha : a < n)
    (hd : ((a : Int) - c).natAbs ≤ 4) : ((cornerFold n a : Int) - 3).natAbs = ((a : Int) - c).natAbs := by
  unfold cornerFold
  split <;> omega

theorem mem_finderCells_corner {n cx cy x y : Nat} {b : Bool} (hn : 21 ≤ n) (hcx : cx = 3 ∨ cx = n - 4)
    (hcy : cy = 3 ∨ cy = n - 4) :
    (x, y, b) ∈ finderCells n cx cy
      ↔ (x < n ∧ ((x : Int) - cx).natAbs ≤ 4) ∧ (y < n ∧ ((y : Int) - cy).natAbs ≤ 4) ∧ b = finderColour n x y := by
  rw [mem_finderCells]
  refine and_congr_right fun hx => and_congr_right fun hy => ?_
  simp only [finderColour, chebyshev, natAbs_cornerFold hn hcx hx.1 hx.2, natAbs_cornerFold hn hcy hy.1 hy.2]

/-- The cells of the three finders of a grid of side n. -/
def finderPattern (n : Nat) : List (Nat × Nat × Bool) :=
  finderCells n 3 3 ++ finderCells n (n - 4) 3 ++ finderCells n 3 (n - 4)

theorem mem_finderPattern {n x y : Nat} {b : Bool} (hn : 21 ≤ n) :
    (x, y, b) ∈ finderPattern n ↔ IsFinderCell n x y ∧ b = finderColour n x y := by
  have hpos : (3 = 3 ∨ 3 = n - 4) ∧ (n - 4 = 3 ∨ n - 4 = n - 4) := ⟨.inl rfl, .inr rfl⟩
  simp only [finderPattern, List.mem_append, mem_finderCells_corner hn hpos.1 hpos.1,
    mem_finderCells_corner hn hpos.2 hpos.1, mem_finderCells_corner hn hpos.1 hpos.2, ← and_assoc, ← or_and_right,
    IsFinderCell]
  refine and_congr_left fun _ => ?_
  omega

/-! ### Timing patterns (R193) -/

theorem add_six_mod_two (a : Nat) : (a + 6) % 2 = a % 2 := by omega

/-- A module of the timing row or column between the finders. -/
def IsFreeTimingCell (n x y : Nat) : Prop := (8 ≤ x ∧ x + 9 ≤ n ∧ y = 6) ∨ (x = 6 ∧ 8 ≤ y ∧ y + 9 ≤ n)

/-- What the timing pass sets at the coordinates `is`: the cells between the finders. -/
def timingCells (n : Nat) (is : List Nat) : List (Nat × Nat × Bool) :=
  is.flatMap fun i => if 8 ≤ i ∧ i + 9 ≤ n then [(i, 6, i % 2 == 0), (6, i, i % 2 == 0)] else []

theorem mem_timingCells {n x y : Nat} {b : Bool} :
    (x, y, b) ∈ timingCells n (List.range n) ↔ IsFreeTimingCell n x y ∧ b = ((x + y) % 2 == 0) := by
  simp only [timingCells, List.mem_flatMap, List.mem_range, List.mem_ite_nil_right, List.mem_cons, List.not_mem_nil,
    or_false, Prod.mk.injEq, IsFreeTimingCell]
  constructor
  · rintro ⟨i, -, hi, ⟨rfl, rfl, rfl⟩ | ⟨rfl, rfl, rfl⟩⟩
    · exact ⟨by omega, by rw [add_six_mod_two]⟩
    · exact ⟨by omega, by rw [Nat.add_comm, add_six_mod_two]⟩
  · rintro ⟨⟨hlo, hhi, rfl⟩ | ⟨rfl, hlo, hhi⟩, rfl⟩
    · exact ⟨x, by omega, ⟨hlo, hhi⟩, .inl ⟨rfl, rfl, by rw [add_six_mod_two]⟩⟩
    · exact ⟨y, by omega, ⟨hlo, hhi⟩, .inr ⟨rfl, rfl, by rw [Nat.add_comm, add_six_mod_two]⟩⟩

/-- On the timing row and column, at coordinate i, exactly the modules outside the free part are flagged. -/
def FlaggedOutsideFree (c : Canvas) (i : Nat) : Prop :=
  (c.f.get i 6 = true ↔ ¬(8 ≤ i ∧ i + 9 ≤ c.size)) ∧ (c.f.get 6 i = true ↔ ¬(8 ≤ i ∧ i + 9 ≤ c.size))

/-- One round of the timing pass. -/
theorem timingRound_eq {c : Canvas} {i : Nat} (hc : c.Square) (h : FlaggedOutsideFree c i) :
    setFnIfFree 6 i (i % 2 == 0) (setFnIfFree i 6 (i % 2 == 0) c) = setFnAll (timingCells c.size [i]) c := by
  obtain ⟨hrow, hcol⟩ := h
  by_cases hi : 8 ≤ i ∧ i + 9 ≤ c.size
  · have hcol' : ¬(setFn i 6 (i % 2 == 0) c).f.get 6 i = true := by
      rw [setFn_flag hc, if_neg (by omega)]
      exact fun h => hcol.1 h hi
    rw [setFnIfFree, setFnIfFree, if_neg fun h => hrow.1 h hi, if_neg hcol']
    simp [timingCells, hi, setFnAll]
  · rw [setFnIfFree, setFnIfFree, if_pos (hrow.2 hi), if_pos (hcol.2 hi)]
    simp [timingCells, hi, setFnAll]

theorem mem_placesOf_timingRound {n i x y : Nat} :
    (x, y) ∈ placesOf (timingCells n [i]) ↔ (8 ≤ i ∧ i + 9 ≤ n) ∧ ((x = i ∧ y = 6) ∨ (x = 6 ∧ y = i)) := by
  by_cases hi : 8 ≤ i ∧ i + 9 ≤ n
  · simp [placesOf, timingCells, hi]
  · simp [placesOf, timingCells, hi]

/-- A round of the timing pass flags nothing at the other coordinates. -/
theorem FlaggedOutsideFree.timingRound {c : Canvas} {i j : Nat} (hc : c.Square) (hij : i ≠ j)
    (h : FlaggedOutsideFree c j) : FlaggedOutsideFree (setFnAll (timingCells c.size [i]) c) j := by
  have hkeep := (sameOff_setFnAll (cells := timingCells c.size [i]) hc).2
  have hrow : (j, 6) ∉ placesOf (timingCells c.size [i]) := by rw [mem_placesOf_timingRound]; omega
  have hcolumn : (6, j) ∉ placesOf (timingCells c.size [i]) := by rw [mem_placesOf_timingRound]; omega
  unfold FlaggedOutsideFree
  rw [setFnAll_size, (hkeep _ _ hrow).2, (hkeep _ _ hcolumn).2]
  exact h

theorem foldl_timing {n : Nat} {is : List Nat} (hnodup : is.Nodup) {c : Canvas} (hn : c.size = n) (hc : c.Square)
    (h : ∀ i ∈ is, FlaggedOutsideFree c i) :
    is.foldl (fun c i => setFnIfFree 6 i (i % 2 == 0) (setFnIfFree i 6 (i % 2 == 0) c)) c
      = setFnAll (timingCells n is) c := by
  induction is generalizing c with
  | nil => rfl
  | cons i is ih =>
    obtain ⟨hi, hnodup⟩ := List.nodup_cons.mp hnodup
    rw [List.foldl_cons, timingRound_eq hc (h i (.head _)),
      ih hnodup ((setFnAll_size _ _).trans hn) (hc.setFnAll _) fun j hj =>
        (h j (.tail _ hj)).timingRound hc (by rintro rfl; exact hi hj)]
    rw [← setFnAll_append, hn, timingCells, timingCells, ← List.flatMap_append]
    rfl

/-- The grids at the start of S7 (R200). -/
def blankOf (n : Nat) : Canvas := { size := n, m := Grid.blank n, f := Grid.blank n }

theorem blankOf_square (n : Nat) : (blankOf n).Square := ⟨blank_square n, blank_square n⟩

theorem blank_get (n x y : Nat) : (Grid.blank n).get x y = false := by
  have hbuild : Grid.blank n = Grid.build n fun _ _ => false := by simp [Grid.blank, Grid.build, List.map_const']
  simp [hbuild, get_build]

/-- After the finders, the timing row and column are free between the finders. -/
theorem drawFinders_flaggedOutsideFree {n i : Nat} (hn : 21 ≤ n) (hi : i < n) :
    FlaggedOutsideFree (drawFinders (blankOf n)) i := by
  have hsize : (drawFinders (blankOf n)).size = n := (drawFinders_keepsShape _).1
  have hflag (x y : Nat) : (drawFinders (blankOf n)).f.get x y = true ↔ IsFinderCell n x y ∧ x < n ∧ y < n := by
    refine (setFnAll_flag_iff (cells := finderPattern n) (blankOf_square n) x y).trans ?_
    simp [mem_placesOf, mem_finderPattern hn, blankOf, blank_get]
  unfold FlaggedOutsideFree
  rw [hflag, hflag, hsize]
  unfold IsFinderCell
  constructor <;> omega

/-! ### Alignment patterns (R194, R195) -/

theorem alignPos_table : (List.range' 1 40).map alignPos = alignmentTable := by decide +kernel

/-- A position is even; it is the first one, the last one, or apart from both. -/
theorem alignPos_cases : ∀ v < 41, 1 ≤ v → ∀ a ∈ alignPos v,
    a % 2 = 0 ∧ (a = 6 ∨ 16 ≤ a ∧ (a = 4 * v + 10 ∨ a + 16 ≤ 4 * v + 10)) := by decide +kernel

/-- Different positions are far apart. -/
theorem alignPos_apart : ∀ v < 41, 1 ≤ v → ∀ a ∈ alignPos v, ∀ b ∈ alignPos v, a < b → a + 5 ≤ b := by decide +kernel

/-- Position number 0, and only it, is 6; the last, and only it, is the side less 7. -/
theorem alignPos_ends : ∀ v < 41, 1 ≤ v → ∀ i < (alignPos v).length,
    (i = 0 ↔ (alignPos v).getD i 0 = 6) ∧ (i = (alignPos v).length - 1 ↔ (alignPos v).getD i 0 = 4 * v + 10) := by
  decide +kernel

theorem mem_alignmentPairs {n i j : Nat} :
    (i, j) ∈ alignmentPairs n
      ↔ i < n ∧ j < n ∧ ¬((i = 0 ∧ j = 0) ∨ (i = 0 ∧ j = n - 1) ∨ (i = n - 1 ∧ j = 0)) := by
  simp [alignmentPairs]

/-- The offset of a cell from the centre of its alignment pattern decides its colour (R195). -/
theorem mem_alignmentCells {cx cy x y : Nat} {b : Bool} (hx : 2 ≤ cx) (hy : 2 ≤ cy) :
    (x, y, b) ∈ alignmentCells cx cy
      ↔ ((cx ≤ x + 2 ∧ x ≤ cx + 2) ∧ cy ≤ y + 2 ∧ y ≤ cy + 2) ∧ b = (chebyshev (x - cx) (y - cy) != 1) := by
  simp only [alignmentCells, List.mem_flatMap, List.mem_map, mem_offsets, Prod.mk.injEq]
  constructor
  · rintro ⟨dy, hdy, dx, hdx, hx', hy', rfl⟩
    obtain rfl : dx = x - cx := by omega
    obtain rfl : dy = y - cy := by omega
    exact ⟨by omega, rfl⟩
  · rintro ⟨⟨hx', hy'⟩, rfl⟩
    exact ⟨y - cy, by omega, x - cx, by omega, by omega, by omega, rfl⟩

/-- A pair of alignment positions at which a pattern stands. -/
def IsAlignmentCentre (v cx cy : Nat) : Prop :=
  cx ∈ alignPos v ∧ cy ∈ alignPos v
    ∧ ¬((cx = 6 ∧ cy = 6) ∨ (cx = 6 ∧ cy = 4 * v + 10) ∨ (cx = 4 * v + 10 ∧ cy = 6))

/-- The cells of all alignment patterns of a version. -/
def alignmentPattern (v : Nat) : List (Nat × Nat × Bool) :=
  (alignmentPairs (alignPos v).length).flatMap fun ij =>
    alignmentCells ((alignPos v).getD ij.1 0) ((alignPos v).getD ij.2 0)

/-- The pairs of position numbers of R195 name the centres. -/
theorem isAlignmentCentre_iff {v cx cy : Nat} (hlo : 1 ≤ v) (hhi : v ≤ 40) :
    IsAlignmentCentre v cx cy ↔ ∃ ij ∈ alignmentPairs (alignPos v).length,
      (alignPos v).getD ij.1 0 = cx ∧ (alignPos v).getD ij.2 0 = cy := by
  have hends := alignPos_ends v (by omega) hlo
  constructor
  · rintro ⟨hcx, hcy, hcorner⟩
    obtain ⟨i, hi, rfl⟩ := List.mem_iff_getElem.mp hcx
    obtain ⟨j, hj, rfl⟩ := List.mem_iff_getElem.mp hcy
    rw [← List.getD_eq_getElem _ 0 hi, ← List.getD_eq_getElem _ 0 hj] at hcorner ⊢
    rw [← (hends i hi).1, ← (hends j hj).1, ← (hends i hi).2, ← (hends j hj).2] at hcorner
    exact ⟨(i, j), mem_alignmentPairs.2 ⟨hi, hj, hcorner⟩, rfl, rfl⟩
  · rintro ⟨⟨i, j⟩, hij, rfl, rfl⟩
    obtain ⟨hi, hj, hcorner⟩ := mem_alignmentPairs.1 hij
    rw [(hends i hi).1, (hends j hj).1, (hends i hi).2, (hends j hj).2] at hcorner
    have hmem {k : Nat} (hk : k < (alignPos v).length) : (alignPos v).getD k 0 ∈ alignPos v := by
      rw [List.getD_eq_getElem _ 0 hk]
      exact List.getElem_mem hk
    exact ⟨hmem hi, hmem hj, hcorner⟩

/-- Where an alignment pattern stands: its positions are even, and it keeps clear of the finder corners, also along the
timing row and column. -/
theorem IsAlignmentCentre.place {v cx cy : Nat} (h : IsAlignmentCentre v cx cy) (hlo : 1 ≤ v) (hhi : v ≤ 40) :
    (cx % 2 = 0 ∧ cy % 2 = 0) ∧ (cx ≤ 4 * v + 10 ∧ cy ≤ 4 * v + 10)
      ∧ ((16 ≤ cx ∧ 16 ≤ cy) ∨ (cx = 6 ∧ 16 ≤ cy ∧ cy + 16 ≤ 4 * v + 10)
        ∨ (cy = 6 ∧ 16 ≤ cx ∧ cx + 16 ≤ 4 * v + 10)) := by
  obtain ⟨hcx, hcy, hcorner⟩ := h
  have hx := alignPos_cases v (by omega) hlo cx hcx
  have hy := alignPos_cases v (by omega) hlo cy hcy
  omega

theorem mem_alignmentPattern {v x y : Nat} {b : Bool} (hlo : 1 ≤ v) (hhi : v ≤ 40) :
    (x, y, b) ∈ alignmentPattern v ↔ ∃ cx cy, IsAlignmentCentre v cx cy
      ∧ ((cx ≤ x + 2 ∧ x ≤ cx + 2) ∧ cy ≤ y + 2 ∧ y ≤ cy + 2) ∧ b = (chebyshev (x - cx) (y - cy) != 1) := by
  simp only [alignmentPattern, List.mem_flatMap]
  constructor
  · rintro ⟨ij, hij, hmem⟩
    have hcentre := (isAlignmentCentre_iff hlo hhi).2 ⟨ij, hij, rfl, rfl⟩
    have hplace := hcentre.place hlo hhi
    exact ⟨_, _, hcentre, (mem_alignmentCells (by omega) (by omega)).1 hmem⟩
  · rintro ⟨cx, cy, hcentre, hmem⟩
    have hplace := hcentre.place hlo hhi
    obtain ⟨ij, hij, rfl, rfl⟩ := (isAlignmentCentre_iff hlo hhi).1 hcentre
    exact ⟨ij, hij, (mem_alignmentCells (by omega) (by omega)).2 hmem⟩

/-! ### Format cells, dark module and version blocks (R196, R197) -/

theorem map_formatCell1 : (List.range 15).map formatCell1 = formatPath1 := by decide

theorem map_formatCell2 {n : Nat} (hn : 21 ≤ n) : (List.range 15).map (formatCell2 n) = formatPath2 n := by
  obtain ⟨m, rfl⟩ := Nat.exists_eq_add_of_le' hn
  rfl

/-- Where the cells of the two format paths are: beside the finders, off the dark module and the timing lines. -/
theorem formatPath_place {n x y : Nat} (hn : 21 ≤ n) (h : (x, y) ∈ formatPath1 ∨ (x, y) ∈ formatPath2 n) :
    (x < n ∧ y < n) ∧ ¬(x = 8 ∧ y = n - 8)
      ∧ ((x = 8 ∧ y ≠ 6 ∧ (y ≤ 8 ∨ n ≤ y + 8)) ∨ (y = 8 ∧ x ≠ 6 ∧ (x ≤ 8 ∨ n ≤ x + 8))) := by
  simp only [formatPath1, formatPath2, List.mem_cons, List.not_mem_nil, Prod.mk.injEq, or_false] at h
  omega

theorem IsFormatCell.place {n x y : Nat} (hn : 21 ≤ n) (h : IsFormatCell n x y) :
    (x < n ∧ y < n)
      ∧ ((x = 8 ∧ y ≠ 6 ∧ (y ≤ 8 ∨ n ≤ y + 8)) ∨ (y = 8 ∧ x ≠ 6 ∧ (x ≤ 8 ∨ n ≤ x + 8))) := by
  rcases or_assoc.2 h with hpath | hdark
  · exact ⟨(formatPath_place hn hpath).1, (formatPath_place hn hpath).2.2⟩
  · obtain ⟨rfl, rfl⟩ := Prod.mk.inj hdark
    omega

theorem mem_formatCells_zero {n x y : Nat} {b : Bool} (hn : 21 ≤ n) :
    (x, y, b) ∈ formatCells n 0 ↔ IsFormatCell n x y ∧ b = decide (x = 8 ∧ y = n - 8) := by
  have hpath {cell : Nat → Nat × Nat} {path : List (Nat × Nat)} (h : (List.range 15).map cell = path) :
      (x, y, b) ∈ (List.range 15).map (fun i => ((cell i).1, (cell i).2, (0 : BitVec 15).getLsbD i))
        ↔ (x, y) ∈ path ∧ b = false := by
    simp [← h, Prod.ext_iff, eq_comm, ← exists_and_right, and_assoc]
  simp only [formatCells, List.mem_append, hpath map_formatCell1, hpath (map_formatCell2 hn), List.mem_singleton,
    IsFormatCell, ← or_and_right]
  by_cases hdark : x = 8 ∧ y = n - 8
  · have hoff : ¬((x, y) ∈ formatPath1 ∨ (x, y) ∈ formatPath2 n) := fun h => (formatPath_place hn h).2.1 hdark
    obtain ⟨rfl, rfl⟩ := hdark
    simp [hoff]
  · have hrest : ¬(x, y, b) = (8, n - 8, true) := by
      rintro ⟨⟩
      exact hdark ⟨rfl, rfl⟩
    simp [hdark, hrest]

/-- The colour of a module of the version blocks: the bit of the version word that stands there (R254). -/
def versionColour (v x y : Nat) : Bool := (versionWord v).getLsbD (3 * min x y + (max x y - (4 * v + 6)))

/-- The cells of the version blocks: none below version 7 (R197). -/
def versionPattern (v : Nat) : List (Nat × Nat × Bool) := if 7 ≤ v then versionCells v else []

theorem drawVersion_eq (v : Nat) (c : Canvas) : drawVersion v c = setFnAll (versionPattern v) c := by
  unfold drawVersion versionPattern
  split
  · rfl
  · rfl

theorem mem_versionPattern {v x y : Nat} {b : Bool} :
    (x, y, b) ∈ versionPattern v ↔ IsVersionCell v x y ∧ b = versionColour v x y := by
  simp only [versionPattern, List.mem_ite_nil_right, versionCells, List.mem_flatMap, List.mem_range, List.mem_cons,
    List.not_mem_nil, or_false, Prod.mk.injEq, IsVersionCell, and_assoc, sideOf, versionColour]
  refine and_congr_right fun hv => ?_
  constructor
  · rintro ⟨i, hi, ⟨rfl, rfl, rfl⟩ | ⟨rfl, rfl, rfl⟩⟩
    · exact ⟨by omega, by congr 1; omega⟩
    · exact ⟨by omega, by congr 1; omega⟩
  · rintro ⟨hplace, rfl⟩
    refine ⟨3 * min x y + (max x y - (4 * v + 6)), by omega, ?_⟩
    simp only [and_true]
    omega

/-! ### All cells of S7 (R191, R200) -/

/-- What S7 sets, in its order. -/
def patternCells (v : Nat) : List (Nat × Nat × Bool) :=
  finderPattern (sideOf v) ++ timingCells (sideOf v) (List.range (sideOf v)) ++ alignmentPattern v
    ++ formatCells (sideOf v) 0 ++ [(8, sideOf v - 8, true)] ++ versionPattern v

/-- S7 is one drawing: the timing pass skips the finders only. -/
theorem functionPatterns_eq {v : Nat} (hlo : 1 ≤ v) :
    functionPatterns v = setFnAll (patternCells v) (blankOf (sideOf v)) := by
  have hn := le_sideOf hlo
  have hfinders : (drawFinders (blankOf (sideOf v))).size = sideOf v := (drawFinders_keepsShape _).1
  have htiming : drawTiming (drawFinders (blankOf (sideOf v)))
      = setFnAll (timingCells (sideOf v) (List.range (sideOf v))) (drawFinders (blankOf (sideOf v))) := by
    rw [drawTiming, hfinders]
    exact foldl_timing List.nodup_range hfinders ((drawFinders_keepsShape _).2 (blankOf_square _)) fun i hi =>
      drawFinders_flaggedOutsideFree hn (List.mem_range.1 hi)
  have hsize : (drawAlignment v (drawTiming (drawFinders (blankOf (sideOf v))))).size = sideOf v :=
    (drawAlignment_keepsShape v _).1.trans ((drawTiming_keepsShape _).1.trans hfinders)
  have hdraw : functionPatterns v = drawVersion v (setFn 8 (sideOf v - 8) true
      (drawFormatBitsWord 0 (drawAlignment v (drawTiming (drawFinders (blankOf (sideOf v))))))) := rfl
  rw [hdraw, drawVersion_eq, drawFormatBitsWord, hsize, htiming]
  simp only [patternCells, setFnAll_append]
  rfl

/-- A cell of S7 is a cell of one of the five patterns, with that pattern's colour. -/
theorem mem_patternCells {v x y : Nat} {b : Bool} (hlo : 1 ≤ v) : (x, y, b) ∈ patternCells v
    ↔ (IsFinderCell (sideOf v) x y ∧ b = finderColour (sideOf v) x y)
      ∨ (IsFreeTimingCell (sideOf v) x y ∧ b = ((x + y) % 2 == 0))
      ∨ (x, y, b) ∈ alignmentPattern v
      ∨ (IsFormatCell (sideOf v) x y ∧ b = decide (x = 8 ∧ y = sideOf v - 8))
      ∨ (IsVersionCell v x y ∧ b = versionColour v x y) := by
  have hn := le_sideOf hlo
  have hdark : (x, y, b) ∈ [(8, sideOf v - 8, true)] → (x, y, b) ∈ formatCells (sideOf v) 0 := fun h =>
    List.mem_append_right _ h
  simp only [patternCells, List.mem_append, or_assoc, mem_finderPattern hn, mem_timingCells, mem_versionPattern,
    ← mem_formatCells_zero hn]
  tauto

section
variable {v x y : Nat} (hlo : 1 ≤ v) (hhi : v ≤ 40)
include hlo hhi

theorem isAlignmentCell_iff : IsAlignmentCell v x y ↔ ∃ b, (x, y, b) ∈ alignmentPattern v := by
  simp only [mem_alignmentPattern hlo hhi]
  constructor
  · rintro ⟨cx, hcx, cy, hcy, hcorner, hnear⟩
    exact ⟨_, cx, cy, ⟨hcx, hcy, hcorner⟩, hnear, rfl⟩
  · rintro ⟨b, cx, cy, ⟨hcx, hcy, hcorner⟩, hnear, -⟩
    exact ⟨cx, hcx, cy, hcy, hcorner, hnear⟩

/-- Alignment patterns keep clear of the finders, the format cells and the version blocks. -/
theorem alignmentPattern_place {b : Bool} (hb : (x, y, b) ∈ alignmentPattern v) :
    (x + 5 ≤ sideOf v ∧ y + 5 ≤ sideOf v) ∧ (9 ≤ x ∨ 9 ≤ y) ∧ (x ≤ 8 → y + 12 ≤ sideOf v)
      ∧ (y ≤ 8 → x + 12 ≤ sideOf v) := by
  obtain ⟨cx, cy, hcentre, hnear, -⟩ := (mem_alignmentPattern hlo hhi).1 hb
  have hplace := hcentre.place hlo hhi
  rw [sideOf]
  omega

/-! Patterns share modules only where an alignment pattern crosses a timing line. -/

theorem finder_apart (h : IsFinderCell (sideOf v) x y) :
    ¬IsFreeTimingCell (sideOf v) x y ∧ (∀ b, (x, y, b) ∉ alignmentPattern v) ∧ ¬IsFormatCell (sideOf v) x y
      ∧ ¬IsVersionCell v x y := by
  have hside : sideOf v = 4 * v + 17 := rfl
  unfold IsFinderCell at h
  refine ⟨?_, fun b hb => ?_, fun hformat => ?_, ?_⟩
  · unfold IsFreeTimingCell; omega
  · have hplace := alignmentPattern_place hlo hhi hb; omega
  · have hplace := hformat.place (le_sideOf hlo); omega
  · unfold IsVersionCell; omega

theorem format_apart (h : IsFormatCell (sideOf v) x y) :
    ¬IsFreeTimingCell (sideOf v) x y ∧ (∀ b, (x, y, b) ∉ alignmentPattern v) ∧ ¬IsVersionCell v x y := by
  have hside : sideOf v = 4 * v + 17 := rfl
  have hplace := h.place (le_sideOf hlo)
  refine ⟨?_, fun b hb => ?_, ?_⟩
  · unfold IsFreeTimingCell; omega
  · have halign := alignmentPattern_place hlo hhi hb; omega
  · unfold IsVersionCell; omega

theorem version_apart (h : IsVersionCell v x y) :
    ¬IsFreeTimingCell (sideOf v) x y ∧ ∀ b, (x, y, b) ∉ alignmentPattern v := by
  have hside : sideOf v = 4 * v + 17 := rfl
  unfold IsVersionCell at h
  refine ⟨?_, fun b hb => ?_⟩
  · unfold IsFreeTimingCell; omega
  · have hplace := alignmentPattern_place hlo hhi hb; omega

theorem alignment_colour_on_timing {b : Bool} (hb : (x, y, b) ∈ alignmentPattern v)
    (h : IsFreeTimingCell (sideOf v) x y) : b = ((x + y) % 2 == 0) := by
  obtain ⟨cx, cy, hcentre, hnear, rfl⟩ := (mem_alignmentPattern hlo hhi).1 hb
  have hplace := hcentre.place hlo hhi
  have hring : chebyshev (x - cx) (y - cy) = 1 ↔ ¬(x + y) % 2 = 0 := by
    unfold chebyshev
    unfold IsFreeTimingCell at h
    omega
  rw [Bool.eq_iff_iff, bne_iff_ne, beq_iff_eq, ne_eq, hring, not_not]

theorem alignment_colour_unique {b b' : Bool} (hb : (x, y, b) ∈ alignmentPattern v)
    (hb' : (x, y, b') ∈ alignmentPattern v) : b = b' := by
  obtain ⟨cx, cy, ⟨hx, hy, -⟩, hnear, rfl⟩ := (mem_alignmentPattern hlo hhi).1 hb
  obtain ⟨cx', cy', ⟨hx', hy', -⟩, hnear', rfl⟩ := (mem_alignmentPattern hlo hhi).1 hb'
  have hapart := alignPos_apart v (by omega) hlo
  have hcx : cx = cx' := by have := hapart _ hx _ hx'; have := hapart _ hx' _ hx; omega
  have hcy : cy = cy' := by have := hapart _ hy _ hy'; have := hapart _ hy' _ hy; omega
  rw [hcx, hcy]

/-- S7 gives a module one colour. -/
theorem patternCells_colour_unique {b b' : Bool} (hb : (x, y, b) ∈ patternCells v)
    (hb' : (x, y, b') ∈ patternCells v) : b = b' := by
  rw [mem_patternCells hlo] at hb hb'
  by_cases hfinder : IsFinderCell (sideOf v) x y
  · obtain ⟨htiming, halign, hformat, hversion⟩ := finder_apart hlo hhi hfinder
    simp only [hfinder, htiming, halign, hformat, hversion, true_and, false_and, or_false] at hb hb'
    rw [hb, hb']
  by_cases hformat : IsFormatCell (sideOf v) x y
  · obtain ⟨htiming, halign, hversion⟩ := format_apart hlo hhi hformat
    simp only [hfinder, htiming, halign, hformat, hversion, true_and, false_and, or_false, false_or] at hb hb'
    rw [hb, hb']
  by_cases hversion : IsVersionCell v x y
  · obtain ⟨htiming, halign⟩ := version_apart hlo hhi hversion
    simp only [hfinder, htiming, halign, hformat, hversion, true_and, false_and, false_or] at hb hb'
    rw [hb, hb']
  simp only [hfinder, hformat, hversion, false_and, false_or, or_false] at hb hb'
  by_cases htiming : IsFreeTimingCell (sideOf v) x y
  · have hline {c : Bool}
        (hc : IsFreeTimingCell (sideOf v) x y ∧ c = ((x + y) % 2 == 0) ∨ (x, y, c) ∈ alignmentPattern v) :
        c = ((x + y) % 2 == 0) := hc.elim And.right fun h => alignment_colour_on_timing hlo hhi h htiming
    rw [hline hb, hline hb']
  · simp only [htiming, false_and, false_or] at hb hb'
    exact alignment_colour_unique hlo hhi hb hb'

/-! ### The grids after S7 -/

theorem patternCells_inGrid {b : Bool} (hb : (x, y, b) ∈ patternCells v) : x < sideOf v ∧ y < sideOf v := by
  obtain ⟨h, -⟩ | ⟨h, -⟩ | h | ⟨h, -⟩ | ⟨h, -⟩ := (mem_patternCells hlo).1 hb
  · unfold IsFinderCell at h; rw [sideOf] at *; omega
  · unfold IsFreeTimingCell at h; omega
  · have hplace := alignmentPattern_place hlo hhi h; omega
  · exact (h.place (le_sideOf hlo)).1
  · unfold IsVersionCell at h; rw [sideOf]; omega

theorem isFunctionCell_iff : IsFunctionCell v x y ↔ ∃ b, (x, y, b) ∈ patternCells v := by
  have hline : IsFinderCell (sideOf v) x y ∨ IsTimingCell (sideOf v) x y
      ↔ IsFinderCell (sideOf v) x y ∨ IsFreeTimingCell (sideOf v) x y := by
    unfold IsFinderCell IsTimingCell IsFreeTimingCell; rw [sideOf]; omega
  simp only [mem_patternCells hlo, exists_or, exists_and_left, exists_eq, and_true, ← isAlignmentCell_iff hlo hhi]
  rw [← or_assoc, ← hline, or_assoc]
  rfl

theorem functionPatterns_flag_iff : (functionPatterns v).f.get x y = true ↔ IsFunctionCell v x y := by
  rw [functionPatterns_eq hlo, setFnAll_flag_iff (blankOf_square _), mem_placesOf, isFunctionCell_iff hlo hhi]
  constructor
  · rintro (⟨h, -⟩ | h)
    · exact h
    · rw [blankOf, blank_get] at h
      cases h
  · rintro ⟨b, hb⟩
    exact .inl ⟨⟨b, hb⟩, patternCells_inGrid hlo hhi hb⟩

theorem functionPatterns_colour {b : Bool} (hb : (x, y, b) ∈ patternCells v) :
    (functionPatterns v).m.get x y = b := by
  obtain ⟨hx, hy⟩ := patternCells_inGrid hlo hhi hb
  rw [functionPatterns_eq hlo]
  exact setFnAll_colour (blankOf_square _) hx hy (fun b' hb' => patternCells_colour_unique hlo hhi hb' hb) fun h =>
    absurd (mem_placesOf.2 ⟨b, hb⟩) h

theorem functionPatterns_light (h : ¬(functionPatterns v).f.get x y = true) :
    (functionPatterns v).m.get x y = false := by
  rw [functionPatterns_flag_iff hlo hhi, isFunctionCell_iff hlo hhi, ← mem_placesOf] at h
  rw [functionPatterns_eq hlo, ((sameOff_setFnAll (blankOf_square _)).2 x y h).1]
  exact blank_get _ x y

theorem functionPatterns_finder (h : IsFinderCell (sideOf v) x y) :
    (functionPatterns v).m.get x y = finderColour (sideOf v) x y :=
  functionPatterns_colour hlo hhi ((mem_patternCells hlo).2 (.inl ⟨h, rfl⟩))

theorem functionPatterns_timing (h : IsFreeTimingCell (sideOf v) x y) :
    (functionPatterns v).m.get x y = ((x + y) % 2 == 0) :=
  functionPatterns_colour hlo hhi ((mem_patternCells hlo).2 (.inr (.inl ⟨h, rfl⟩)))

theorem functionPatterns_format (h : IsFormatCell (sideOf v) x y) :
    (functionPatterns v).m.get x y = decide (x = 8 ∧ y = sideOf v - 8) :=
  functionPatterns_colour hlo hhi ((mem_patternCells hlo).2 (.inr (.inr (.inr (.inl ⟨h, rfl⟩)))))

theorem functionPatterns_version (h : IsVersionCell v x y) :
    (functionPatterns v).m.get x y = versionColour v x y :=
  functionPatterns_colour hlo hhi ((mem_patternCells hlo).2 (.inr (.inr (.inr (.inr ⟨h, rfl⟩)))))

/-- The colours of the three finders, each read from its own corner inwards (R192). -/
theorem functionPatterns_corners (hx : x < 8) (hy : y < 8) :
    let d := max ((x : Int) - 3).natAbs ((y : Int) - 3).natAbs
    let dark := d != 2 && d != 4
    (functionPatterns v).m.get x y = dark ∧ (functionPatterns v).m.get (sideOf v - 1 - x) y = dark
      ∧ (functionPatterns v).m.get x (sideOf v - 1 - y) = dark := by
  have hn := le_sideOf hlo
  have hnear {a : Nat} (ha : a < 8) : cornerFold (sideOf v) a = a := if_pos ha
  have hfar {a : Nat} (ha : a < 8) : cornerFold (sideOf v) (sideOf v - 1 - a) = a := by
    rw [cornerFold, if_neg (by omega)]
    omega
  refine ⟨?_, ?_, ?_⟩
  · rw [functionPatterns_finder hlo hhi (.inl ⟨hx, hy⟩), finderColour, hnear hx, hnear hy]
    rfl
  · rw [functionPatterns_finder hlo hhi (.inr (.inl ⟨by omega, by omega, hy⟩)), finderColour, hfar hx, hnear hy]
    rfl
  · rw [functionPatterns_finder hlo hhi (.inr (.inr ⟨hx, by omega, by omega⟩)), finderColour, hnear hx, hfar hy]
    rfl

/-- Bit i of the version word stands in both blocks (R254). -/
theorem functionPatterns_versionBit {i : Nat} (hv : 7 ≤ v) (hi : i < 18) :
    (functionPatterns v).m.get (sideOf v - 11 + i % 3) (i / 3) = (versionWord v).getLsbD i
      ∧ (functionPatterns v).m.get (i / 3) (sideOf v - 11 + i % 3) = (versionWord v).getLsbD i := by
  rw [sideOf]
  rw [functionPatterns_version hlo hhi ⟨hv, by omega⟩, functionPatterns_version hlo hhi ⟨hv, by omega⟩]
  constructor
  · exact congrArg (versionWord v).getLsbD (by omega)
  · exact congrArg (versionWord v).getLsbD (by omega)

end

/-- Settles O28: S7 is one drawing, whose cells give each module at most one colour. -/
theorem fpatDrawsTheFixedPatterns : Obligations.FpatDrawsTheFixedPatterns := by
  intro s hlo hhi
  have hside : sideOf s.work.ver = 4 * s.work.ver + 17 := rfl
  obtain ⟨hsize, hm, hf⟩ := functionPatterns_shape s.work.ver
  rw [hsize] at hm hf
  refine ⟨_, _, rfl, hm, hf, ?_, ?_, ?_, ?_, ?_, ?_, ?_⟩
  · exact fun x y hx hy => functionPatterns_corners hlo hhi hx hy
  · intro i hi hi'
    have hrow : IsFreeTimingCell (sideOf s.work.ver) i 6 := .inl ⟨hi, by omega, rfl⟩
    have hcolumn : IsFreeTimingCell (sideOf s.work.ver) 6 i := .inr ⟨rfl, hi, by omega⟩
    rw [functionPatterns_timing hlo hhi hrow, functionPatterns_timing hlo hhi hcolumn, Nat.add_comm 6, add_six_mod_two]
    exact ⟨rfl, rfl⟩
  · intro x y h
    rw [functionPatterns_format hlo hhi (or_assoc.1 (.inl h)), decide_eq_false_iff_not]
    exact (formatPath_place (le_sideOf hlo) h).2.1
  · exact (functionPatterns_format hlo hhi (.inr (.inr rfl))).trans (decide_eq_true ⟨rfl, rfl⟩)
  · exact fun hv i hi => functionPatterns_versionBit hlo hhi hv hi
  · exact fun x y => functionPatterns_flag_iff hlo hhi
  · exact fun x y h => functionPatterns_light hlo hhi (by rw [h]; exact Bool.false_ne_true)

/-- Settles O29: the positions by the table, the colours by the offset from the centre. -/
theorem fpatDrawsTheAlignmentPatterns : Obligations.FpatDrawsTheAlignmentPatterns := by
  refine ⟨alignPos_table, fun s t hlo hhi ht cx hcx cy hcy hcorner x y hx hy => ?_⟩
  cases ht
  have hplace := IsAlignmentCentre.place ⟨hcx, hcy, hcorner⟩ hlo hhi
  have hcell : (cx + x - 2, cy + y - 2, max ((x : Int) - 2).natAbs ((y : Int) - 2).natAbs != 1)
      ∈ alignmentPattern s.work.ver := by
    refine (mem_alignmentPattern hlo hhi).2 ⟨cx, cy, ⟨hcx, hcy, hcorner⟩, by omega, ?_⟩
    congr 1
    unfold chebyshev
    omega
  have hmem := (mem_patternCells hlo).2 (.inr (.inr (.inl hcell)))
  exact ⟨functionPatterns_colour hlo hhi hmem,
    (functionPatterns_flag_iff hlo hhi).2 ((isFunctionCell_iff hlo hhi).2 ⟨_, hmem⟩)⟩

end Sys2Proof.Machine
end

section
/-! PROOFS. The placement of S8 (spec/46_codeword_placement.md, O33, O34): the column pairs in order, the cells of a pair,
the path through all of them, and what placing bits along a path leaves in each module. -/

namespace Sys2Proof.Machine

/-! ### The column pairs -/

/-- The right column of a column pair (R210): even to the right of column 6, odd to its left. -/
def IsPairColumn (r : Nat) : Prop := (6 < r ∧ r % 2 = 0) ∨ (r < 6 ∧ r % 2 = 1)

/-- The values of the loop variable of R210, the last one included: even down to column 6, then odd, then 0. -/
def IsPairCounter (right : Nat) : Prop := (6 ≤ right ∧ right % 2 = 0) ∨ (right < 6 ∧ right % 2 = 1) ∨ right = 0

theorem IsPairColumn.mem_pair_iff {r : Nat} (hr : IsPairColumn r) (x : Nat) :
    x = r ∨ x = r - 1 ↔ pairRightOf x = r := by
  unfold IsPairColumn at hr
  unfold pairRightOf
  split <;> omega

theorem isPairColumn_pairRightOf_iff {x : Nat} : IsPairColumn (pairRightOf x) ↔ x ≠ 6 := by
  unfold IsPairColumn pairRightOf
  split <;> omega

/-- A grid of odd side has both columns of a pair, or neither. -/
theorem pairRightOf_lt_iff {n x : Nat} (hodd : n % 2 = 1) (hn : 7 ≤ n) (hx : x ≠ 6) : pairRightOf x < n ↔ x < n := by
  unfold pairRightOf
  split <;> omega

theorem le_of_mem_pairColumns {fuel right r : Nat} (h : r ∈ pairColumns fuel right) : r ≤ right := by
  induction fuel generalizing right with
  | zero => cases h
  | succ fuel ih =>
    rw [pairColumns] at h
    split at h
    · cases h
    · obtain rfl | hrest := List.mem_cons.1 h
      · split <;> omega
      · have := ih hrest
        split at this <;> omega

theorem pairColumns_decreasing (fuel right : Nat) : (pairColumns fuel right).Pairwise (· > ·) := by
  induction fuel generalizing right with
  | zero => exact .nil
  | succ fuel ih =>
    rw [pairColumns]
    split
    · exact .nil
    · refine .cons (fun r hr => ?_) (ih _)
      have := le_of_mem_pairColumns hr
      split at this <;> split <;> omega

/-- The loop of R210 meets every column pair from its start on. -/
theorem mem_pairColumns {fuel right : Nat} (hfuel : right ≤ fuel) (hright : IsPairCounter right) (r : Nat) :
    r ∈ pairColumns fuel right ↔ IsPairColumn r ∧ r ≤ right := by
  unfold IsPairCounter at hright
  induction fuel generalizing right with
  | zero =>
    unfold IsPairColumn
    simp only [pairColumns, List.not_mem_nil, false_iff]
    omega
  | succ fuel ih =>
    rw [pairColumns]
    by_cases hend : right < 1
    · rw [if_pos hend]
      unfold IsPairColumn
      simp only [List.not_mem_nil, false_iff]
      omega
    · by_cases hsix : right = 6
      · simp only [if_neg hend, if_pos hsix, List.mem_cons, ih (right := 5 - 2) (by omega) (by omega)]
        unfold IsPairColumn
        omega
      · simp only [if_neg hend, if_neg hsix, List.mem_cons, ih (right := right - 2) (by omega) (by omega)]
        unfold IsPairColumn
        omega

/-! ### The cells of a pair -/

theorem pairRow_lt {n i : Nat} (right : Nat) (hi : i < n) : pairRow n right i < n := by
  unfold pairRow
  split <;> omega

theorem pairRow_pairRow {n i : Nat} (right : Nat) (hi : i < n) : pairRow n right (pairRow n right i) = i := by
  unfold pairRow
  split <;> omega

/-- The rows of a pair run upward or downward, as R210 says. -/
theorem pairRow_ordered {n i j : Nat} (right : Nat) (hij : i < j) (hj : j < n) :
    if (right + 1) &&& 2 = 0 then pairRow n right j < pairRow n right i else pairRow n right i < pairRow n right j := by
  unfold pairRow
  split <;> omega

theorem mem_pairCells {n right x y : Nat} : (x, y) ∈ pairCells n right ↔ y < n ∧ (x = right ∨ x = right - 1) := by
  simp only [pairCells, List.mem_flatMap, List.mem_range, List.mem_cons, List.not_mem_nil, or_false, Prod.mk.injEq]
  constructor
  · rintro ⟨i, hi, ⟨hx, rfl⟩ | ⟨hx, rfl⟩⟩
    · exact ⟨pairRow_lt right hi, .inl hx⟩
    · exact ⟨pairRow_lt right hi, .inr hx⟩
  · rintro ⟨hy, hx⟩
    exact ⟨pairRow n right y, pairRow_lt right hy, by simpa [pairRow_pairRow right hy] using hx⟩

theorem pairCells_pairwise {n r : Nat} (hr : IsPairColumn r) : (pairCells n r).Pairwise PathBefore := by
  have hright : pairRightOf r = r := (hr.mem_pair_iff r).1 (.inl rfl)
  have hleft : pairRightOf (r - 1) = r := (hr.mem_pair_iff (r - 1)).1 (.inr rfl)
  have hpos : r - 1 < r := by unfold IsPairColumn at hr; omega
  refine List.pairwise_flatMap.2 ⟨fun i _ => ?_, List.pairwise_lt_range.imp_of_mem fun {i j} _ hj hij => ?_⟩
  · exact List.pairwise_pair.2 (.inr ⟨hright.trans hleft.symm, .inr ⟨rfl, hpos⟩⟩)
  · have hrow := pairRow_ordered r hij (List.mem_range.1 hj)
    have hcell {k : Nat} {p : Nat × Nat} (hp : p ∈ [(r, pairRow n r k), (r - 1, pairRow n r k)]) :
        pairRightOf p.1 = r ∧ p.2 = pairRow n r k := by
      obtain rfl | rfl := List.mem_pair.1 hp
      · exact ⟨hright, rfl⟩
      · exact ⟨hleft, rfl⟩
    intro p hp q hq
    obtain ⟨hpr, hpy⟩ := hcell hp
    obtain ⟨hqr, hqy⟩ := hcell hq
    exact .inr ⟨hpr.trans hqr.symm, .inl (by rwa [hpr, hpy, hqy])⟩

/-! ### The path -/

theorem pathBefore_irrefl (p : Nat × Nat) : ¬PathBefore p p := by
  unfold PathBefore
  split <;> omega

section
variable {n : Nat} (hodd : n % 2 = 1) (hn : 7 ≤ n) (f : Grid)
include hodd hn

theorem mem_pairColumns_side (r : Nat) : r ∈ pairColumns n (n - 1) ↔ IsPairColumn r ∧ r < n := by
  have hright : IsPairCounter (n - 1) := .inl (by omega)
  rw [mem_pairColumns (Nat.sub_le n 1) hright, Nat.le_sub_one_iff_lt (by omega)]

theorem mem_zigzag (x y : Nat) : (x, y) ∈ zigzag n f ↔ x < n ∧ y < n ∧ x ≠ 6 ∧ f.get x y = false := by
  simp only [zigzag, List.mem_flatMap, List.mem_filter, mem_pairColumns_side hodd hn, mem_pairCells, Bool.not_eq_true']
  constructor
  · rintro ⟨r, ⟨hr, hlt⟩, ⟨hy, hx⟩, hfree⟩
    obtain rfl := (hr.mem_pair_iff x).1 hx
    have hx6 := isPairColumn_pairRightOf_iff.1 hr
    exact ⟨(pairRightOf_lt_iff hodd hn hx6).1 hlt, hy, hx6, hfree⟩
  · rintro ⟨hx, hy, hx6, hfree⟩
    have hr := isPairColumn_pairRightOf_iff.2 hx6
    exact ⟨pairRightOf x, ⟨hr, (pairRightOf_lt_iff hodd hn hx6).2 hx⟩, ⟨hy, (hr.mem_pair_iff x).2 rfl⟩, hfree⟩

/-- The path in the order of R210: inside a pair by rows, and from pair to pair by columns. -/
theorem zigzag_pairwise : (zigzag n f).Pairwise PathBefore := by
  have hpair {r : Nat} (h : r ∈ pairColumns n (n - 1)) : IsPairColumn r := ((mem_pairColumns_side hodd hn r).1 h).1
  have hcell {r : Nat} (h : r ∈ pairColumns n (n - 1)) {p : Nat × Nat}
      (hp : p ∈ (pairCells n r).filter fun p => !f.get p.1 p.2) : pairRightOf p.1 = r :=
    ((hpair h).mem_pair_iff p.1).1 (mem_pairCells.1 (List.mem_of_mem_filter hp)).2
  refine List.pairwise_flatMap.2 ⟨fun r hr => (pairCells_pairwise (hpair hr)).filter _,
    (pairColumns_decreasing n (n - 1)).imp_of_mem fun {r r'} hr hr' hlt p hp q hq => .inl ?_⟩
  rwa [hcell hr hp, hcell hr' hq]

theorem zigzag_nodup : (zigzag n f).Nodup := by
  refine (zigzag_pairwise hodd hn f).imp ?_
  rintro p _ h rfl
  exact pathBefore_irrefl p h

end

/-- Settles O33: the column pairs decrease, a pair runs through its rows in one direction, and together the pairs hold
every column but column 6. -/
theorem zigzagVisitsEachFreeCellOnce : Obligations.ZigzagVisitsEachFreeCellOnce := by
  intro v f hv
  have hodd : (4 * v + 17) % 2 = 1 := by omega
  have hn : 7 ≤ 4 * v + 17 := by omega
  exact ⟨zigzag_nodup hodd hn f, zigzag_pairwise hodd hn f, mem_zigzag hodd hn f⟩

/-! ### Placing bits along a path -/

theorem placeBits_cons (p : Nat × Nat) (path : List (Nat × Nat)) (b : Bool) (bits : List Bool) (m : Grid) :
    placeBits (p :: path) (b :: bits) m = placeBits path bits (m.set p.1 p.2 b) := rfl

section
variable {n x y : Nat} {path : List (Nat × Nat)} {bits : List Bool} {m : Grid} (hm : m.square n = true)
include hm

/-- Only the cells that get a bit change (R212). -/
theorem placeBits_get_of_not_mem (h : (x, y) ∉ path.take bits.length) :
    (placeBits path bits m).get x y = m.get x y := by
  induction path generalizing bits m with
  | nil => rfl
  | cons p path ih =>
    cases bits with
    | nil => rfl
    | cons b bits =>
      obtain ⟨hp, hrest⟩ := not_or.1 (mt List.mem_cons.2 h)
      have hne : ¬(x = p.1 ∧ y = p.2 ∧ p.1 < n ∧ p.2 < n) := fun ⟨hx, hy, _⟩ => hp (Prod.ext hx hy)
      rw [placeBits_cons, ih (set_square _ _ _ _ _ hm) hrest, get_set _ _ _ _ _ _ _ hm, if_neg hne]

/-- Bit i stands on cell i, where the path stays in the grid and never returns to a cell (R211). -/
theorem placeBits_get_of_getElem? {i : Nat} {b : Bool} (hnodup : path.Nodup)
    (hgrid : ∀ x y, (x, y) ∈ path → x < n ∧ y < n) (hcell : path[i]? = some (x, y)) (hbit : bits[i]? = some b) :
    (placeBits path bits m).get x y = b := by
  induction path generalizing bits m i with
  | nil => cases hcell
  | cons p path ih =>
    cases bits with
    | nil => cases hbit
    | cons c bits =>
      obtain ⟨hp, hnodup⟩ := List.nodup_cons.1 hnodup
      have hsquare := set_square m n p.1 p.2 c hm
      rw [placeBits_cons]
      cases i with
      | zero =>
        cases hcell
        cases hbit
        have hunseen : (x, y) ∉ path.take bits.length := fun h => hp (List.mem_of_mem_take h)
        rw [placeBits_get_of_not_mem hsquare hunseen, get_set _ _ _ _ _ _ _ hm,
          if_pos ⟨rfl, rfl, hgrid x y List.mem_cons_self⟩]
      | succ i => exact ih hsquare hnodup (fun x y h => hgrid x y (List.mem_cons_of_mem _ h)) hcell hbit

end

/-- Settles O34: the path has no cell twice, so what S8 writes on a cell stays there. -/
theorem placeWritesTheCodewordBits : Obligations.PlaceWritesTheCodewordBits := by
  intro s hver hm
  have hodd : (4 * s.work.ver + 17) % 2 = 1 := by omega
  have hn : 7 ≤ 4 * s.work.ver + 17 := by omega
  refine ⟨_, rfl, fun i x y b hcell hbyte => ?_, fun x y h => ?_⟩
  · have hbit : (bytesBits s.work.acw)[i]? = some (b.getLsbD (7 - i % 8)) := by rw [bytesBits_getElem?, hbyte]; rfl
    have hgrid (x y : Nat) (h : (x, y) ∈ zigzag (4 * s.work.ver + 17) s.work.f) :
        x < 4 * s.work.ver + 17 ∧ y < 4 * s.work.ver + 17 := by
      obtain ⟨hx, hy, -⟩ := (mem_zigzag hodd hn s.work.f x y).1 h
      exact ⟨hx, hy⟩
    exact placeBits_get_of_getElem? hm (zigzag_nodup hodd hn s.work.f) hgrid hcell hbit
  · exact placeBits_get_of_not_mem hm (by rwa [bytesBits_length])

end Sys2Proof.Machine
end

section
/-! PROOFS. The mask rows (spec/47_mask_and_penalty.md R220 to R229, O35, O36): which modules a mask inverts, and that
it undoes itself. -/

namespace Sys2Proof.Machine

/-- What a module holds after the mask of a predicate. -/
theorem applyPred_get (p : Nat → Nat → Bool) (c : Canvas) (x y : Nat) :
    (applyPred p c).m.get x y = (decide (x < c.size ∧ y < c.size) && maskedModule p c x y) :=
  get_build _ _ _ _

/-- A masked module as an exclusive or (R228). -/
theorem maskedModule_eq_xor (p : Nat → Nat → Bool) (c : Canvas) (x y : Nat) :
    maskedModule p c x y = (c.m.get x y ^^ (!c.f.get x y && p x y)) := by
  unfold maskedModule
  cases !c.f.get x y && p x y <;> simp

/-- A mask undoes itself on colours of the canvas's side, whatever the flags (R229). -/
theorem applyPred_applyPred (p : Nat → Nat → Bool) {c : Canvas} (hm : c.m.square c.size = true) :
    applyPred p (applyPred p c) = c := by
  have hback : (applyPred p (applyPred p c)).m = c.m := by
    refine grid_ext (build_square _ _) hm fun x y => ?_
    rw [applyPred_get, maskedModule_eq_xor, applyPred_get, maskedModule_eq_xor]
    by_cases hin : x < c.size ∧ y < c.size
    · simp [applyPred, hin]
    · simp [applyPred, hin, get_outside hm hin]
  rw [applyPred, Canvas.mk.injEq]
  exact ⟨rfl, hback, rfl⟩

/-- What a mask row does: the modules of the grid where its predicate holds and that are no function modules are
inverted, and nothing else changes (R228). -/
theorem maskWork_inverts (p : Nat → Nat → Bool) (s : State) :
    ∃ m, Host.Outcome.next (maskWork p s) = (.next { s with work := { s.work with m := m } } : Out)
      ∧ m.square (4 * s.work.ver + 17) = true
      ∧ ∀ x y, x < 4 * s.work.ver + 17 → y < 4 * s.work.ver + 17 →
          m.get x y = if s.work.f.get x y = false ∧ p x y = true then !s.work.m.get x y else s.work.m.get x y := by
  refine ⟨(applyPred p (canvasOf s.work)).m, rfl, build_square _ _, fun x y hx hy => ?_⟩
  have hin : x < (canvasOf s.work).size ∧ y < (canvasOf s.work).size := ⟨hx, hy⟩
  rw [applyPred_get, decide_eq_true hin, Bool.true_and, maskedModule]
  simp [canvasOf]

theorem maskWork_maskWork (p : Nat → Nat → Bool) {s : State} (hm : s.work.m.square (sideOf s.work.ver) = true) :
    maskWork p (maskWork p s) = s :=
  congrArg (fun c => setWork (withCanvas c s.work) s) (applyPred_applyPred p (c := canvasOf s.work) hm)

/-- Settles O35: each row is the mask of its own predicate. -/
theorem eachMaskInvertsWhereItsPredicateHolds : Obligations.EachMaskInvertsWhereItsPredicateHolds := by
  intro i k p hrow
  simp only [List.mem_cons, List.not_mem_nil, or_false, Prod.mk.injEq] at hrow
  rcases hrow with ⟨rfl, rfl, rfl⟩ | ⟨rfl, rfl, rfl⟩ | ⟨rfl, rfl, rfl⟩ | ⟨rfl, rfl, rfl⟩ | ⟨rfl, rfl, rfl⟩
    | ⟨rfl, rfl, rfl⟩ | ⟨rfl, rfl, rfl⟩ | ⟨rfl, rfl, rfl⟩ <;>
  exact ⟨rfl, fun _ _ => rfl, maskWork_inverts _⟩

/-- Settles O36: each row is a mask, and a mask undoes itself. -/
theorem maskAppliedTwiceRestores : Obligations.MaskAppliedTwiceRestores := by
  intro i hi s hm
  simp only [List.mem_cons, List.not_mem_nil, or_false] at hi
  rcases hi with rfl | rfl | rfl | rfl | rfl | rfl | rfl | rfl <;>
  exact ⟨_, rfl, congrArg Host.Outcome.next (maskWork_maskWork _ hm)⟩

end Sys2Proof.Machine
end

section
/-! PROOFS. The penalty score (spec/47_mask_and_penalty.md R230 to R234, O37, O38, O39): the lines of a square grid by
its modules, and each rule's score as a count over them. -/

namespace Sys2Proof.Machine

/-! ### The lines of a grid -/

theorem row_eq_map_get {g : Grid} {n y : Nat} (hg : g.square n = true) (hy : y < n) :
    g.row y = (List.range n).map fun x => g.get x y := by
  obtain ⟨hrows, hlen⟩ := (square_iff g n).mp hg
  have hy' : y < g.rows.length := hrows ▸ hy
  have hrow : g.row y = g.rows[y] := by simp [Grid.row, List.getD, hy']
  have hn : (g.row y).length = n := by rw [hrow]; exact hlen _ (List.getElem_mem hy')
  refine List.ext_getElem (by simpa using hn) fun x hx _ => ?_
  have hget : g.get x y = (g.row y).getD x false := rfl
  simp [hget, List.getD, hx]

theorem map_row_eq_rows {g : Grid} {n : Nat} (hg : g.square n = true) : (List.range n).map g.row = g.rows := by
  obtain ⟨hrows, -⟩ := (square_iff g n).mp hg
  refine List.ext_getElem (by simp [hrows]) fun y hy hy' => ?_
  simp [Grid.row, List.getD, hy']

theorem column_eq_map_get {g : Grid} {n : Nat} (hg : g.square n = true) (x : Nat) :
    g.column x = (List.range n).map fun y => g.get x y := by
  rw [Grid.column, ← map_row_eq_rows hg, List.map_map]
  rfl

/-- The rows of a square grid, then its columns (R230), by their modules. -/
theorem gridLines_eq {g : Grid} {n : Nat} (hg : g.square n = true) :
    gridLines n g = ((List.range n).map fun k => (List.range n).map fun i => g.get i k)
      ++ (List.range n).map fun k => (List.range n).map fun i => g.get k i := by
  rw [gridLines, List.map_congr_left fun y hy => row_eq_map_get hg (List.mem_range.1 hy),
    List.map_congr_left fun x _ => column_eq_map_get hg x]

theorem sum_map_ite_eq_countP {α : Type} (a : Nat) (p : α → Bool) (l : List α) :
    (l.map fun i => if p i then a else 0).sum = a * l.countP p := by
  induction l with
  | nil => rfl
  | cons i l ih =>
    rw [List.map_cons, List.sum_cons, ih, List.countP_cons]
    split <;> ring

/-! ### Rules (a) and (b) -/

theorem runsFrom_replicate_append (b : Bool) (k n : Nat) (rest : List Bool) :
    runsFrom b k (List.replicate n b ++ rest) = runsFrom b (k + n) rest := by
  induction n generalizing k with
  | zero => rfl
  | succ n ih =>
    rw [List.replicate_succ, List.cons_append, runsFrom, if_pos rfl, ih, Nat.add_assoc, Nat.add_comm 1]

/-- A run ends where the colour changes, or at the end of the line. -/
theorem runsFrom_of_head?_ne {b : Bool} {rest : List Bool} (n : Nat) (h : rest.head? ≠ some b) :
    runsFrom b n rest = n :: runLengths rest := by
  cases rest with
  | nil => rfl
  | cons c rest => rw [runsFrom, if_neg fun hc => h (congrArg some hc), runLengths]

/-- Runs are maximal (R230). -/
theorem runLengths_replicate_append {b : Bool} {n : Nat} {rest : List Bool} (hn : 0 < n) (h : rest.head? ≠ some b) :
    runLengths (List.replicate n b ++ rest) = n :: runLengths rest := by
  obtain ⟨n, rfl⟩ := Nat.exists_eq_add_one.2 hn
  rw [List.replicate_succ, List.cons_append, runLengths, runsFrom_replicate_append, Nat.add_comm 1,
    runsFrom_of_head?_ne _ h]

/-- Whether the 2×2 block of two rows at column x is of one colour (R231). -/
def blockAt (p q : Nat → Bool) (x : Nat) : Bool := p x == p (x + 1) && p x == q x && p x == q (x + 1)

theorem blockAt_iff (p q : Nat → Bool) (x : Nat) :
    blockAt p q x = true ↔ p x = p (x + 1) ∧ p (x + 1) = q x ∧ q x = q (x + 1) := by
  simp only [blockAt, Bool.and_eq_true, beq_iff_eq]
  constructor
  · rintro ⟨⟨h1, h2⟩, h3⟩
    exact ⟨h1, h1.symm.trans h2, h2.symm.trans h3⟩
  · rintro ⟨h1, h2, h3⟩
    exact ⟨⟨h1, h1.trans h2⟩, h1.trans (h2.trans h3)⟩

/-- Each block of one colour in two adjacent rows scores 3 (R231). -/
theorem blockRowScore_map_range (p q : Nat → Bool) (n : Nat) :
    blockRowScore ((List.range (n + 1)).map p) ((List.range (n + 1)).map q)
      = 3 * (List.range n).countP (blockAt p q) := by
  induction n generalizing p q with
  | zero => rfl
  | succ n ih =>
    have hrest := ih (fun x => p (x + 1)) fun x => q (x + 1)
    have hcount : (List.range (n + 1)).countP (blockAt p q)
        = (List.range n).countP (blockAt (fun x => p (x + 1)) fun x => q (x + 1))
          + if blockAt p q 0 then 1 else 0 := by
      rw [List.range_succ_eq_map, List.countP_cons, List.countP_map]
      rfl
    rw [List.range_succ_eq_map] at hrest
    rw [hcount, Nat.mul_add, ← hrest, List.range_succ_eq_map, List.range_succ_eq_map]
    simp only [List.map_cons, List.map_map, Function.comp_def, blockRowScore, ← blockAt_iff p q 0]
    rw [Nat.add_comm, mul_ite, Nat.mul_one, Nat.mul_zero]

theorem penaltyBlocks_eq {g : Grid} {n : Nat} (hg : g.square n = true) :
    penaltyBlocks n g = 3 * ((List.range (n - 1)).map fun y => (List.range (n - 1)).countP fun x =>
      g.get x y == g.get (x + 1) y && g.get x y == g.get x (y + 1) && g.get x y == g.get (x + 1) (y + 1)).sum := by
  rw [penaltyBlocks, ← List.sum_map_mul_left]
  refine congrArg List.sum (List.map_congr_left fun y hy => ?_)
  have hy' : y + 1 < n := Nat.add_lt_of_lt_sub (List.mem_range.1 hy)
  obtain ⟨k, rfl⟩ := Nat.exists_eq_add_one.2 (Nat.zero_lt_of_lt hy')
  rw [row_eq_map_get hg (Nat.lt_of_succ_lt hy'), row_eq_map_get hg hy', blockRowScore_map_range]
  rfl

/-- Settles O37: runs by the recursion of `runLengths`, blocks row by row. -/
theorem runsAndBlocksAreScored : Obligations.RunsAndBlocksAreScored := by
  refine ⟨fun b n rest => runLengths_replicate_append, fun n g hg => ?_, fun n g => penaltyBlocks_eq,
    fun cfg n g => rfl⟩
  rw [penaltyRuns, gridLines, map_row_eq_rows hg, List.map_congr_left fun x _ => column_eq_map_get hg x]
  rfl

/-! ### Rule (c) -/

/-- The window of k modules of a line from place i on. -/
theorem take_drop_map_range (p : Nat → Bool) {n i k : Nat} (h : i + k ≤ n) :
    (((List.range n).map p).drop i).take k = (List.range k).map fun j => p (i + j) := by
  refine List.ext_getElem (by simp; omega) fun j hj hj' => ?_
  simp

/-- A window counts where it is the pattern P of R232, or under `CFG.N3_BOTH` its reverse. -/
def countsAsFinder (n3 : Bool) (w : List Bool) : Bool :=
  decide (w = [true, false, true, true, true, false, true, false, false, false, false])
    || (n3 && decide (w = [false, false, false, false, true, false, true, true, true, false, true]))

theorem windowScore_eq (n3 : Bool) (w : List Bool) : windowScore n3 w = if countsAsFinder n3 w then 40 else 0 := by
  have hrev : finderLike.reverse = [false, false, false, false, true, false, true, true, true, false, true] := rfl
  rw [windowScore, hrev, finderLike]
  by_cases h : w = [true, false, true, true, true, false, true, false, false, false, false] <;>
    simp [countsAsFinder, h]

/-- A line scores 40 for each of its windows that counts (R232). -/
theorem windowsScore_map_range (n3 : Bool) (n : Nat) (p : Nat → Bool) :
    windowsScore n3 n ((List.range n).map p)
      = 40 * (List.range (n + 1 - 11)).countP fun i => countsAsFinder n3 ((List.range 11).map fun j => p (i + j)) := by
  rw [windowsScore, ← sum_map_ite_eq_countP]
  refine congrArg List.sum (List.map_congr_left fun i hi => ?_)
  have hi' := List.mem_range.1 hi
  rw [take_drop_map_range p (by omega), windowScore_eq]

/-- Settles O38: the rows, then the columns, window by window. -/
theorem finderLikeCountsWindows : Obligations.FinderLikeCountsWindows := by
  intro n3 n g hg
  rw [penaltyFinderLike, gridLines_eq hg, List.map_append, List.sum_append, List.map_map, List.map_map,
    ← List.sum_map_mul_left, ← List.sum_map_mul_left]
  simp only [Function.comp_def, windowsScore_map_range]
  rfl

/-! ### Rule (d) -/

theorem darkCount_eq {g : Grid} {n : Nat} (hg : g.square n = true) :
    darkCount g = ((List.range n).map fun y => (List.range n).countP fun x => g.get x y).sum := by
  rw [darkCount, ← map_row_eq_rows hg, List.map_map]
  refine congrArg List.sum (List.map_congr_left fun y hy => ?_)
  rw [Function.comp_apply, row_eq_map_get hg (List.mem_range.1 hy), List.count, List.countP_map]
  exact List.countP_congr fun x _ => by simp

theorem darkCount_le {g : Grid} {n : Nat} (hg : g.square n = true) : darkCount g ≤ n * n := by
  have hrow : ∀ k ∈ (List.range n).map fun y => (List.range n).countP fun x => g.get x y, k ≤ n := by
    simp only [List.forall_mem_map]
    exact fun y _ => List.countP_le_length.trans_eq List.length_range
  rw [darkCount_eq hg]
  exact (List.sum_le_card_nsmul _ n hrow).trans_eq (by simp)

/-- The ceiling of a quotient, less 1, is the floor where it does not divide, and 1 less than the floor where it
does (R233). -/
theorem ceil_sub_one (d : Nat) {t : Nat} (ht : 0 < t) :
    (d + t - 1) / t - 1 = if d % t = 0 then d / t - 1 else d / t := by
  have hd := Nat.div_add_mod d t
  split
  · have hlt : t - 1 < t := by omega
    have hsplit : d + t - 1 = t * (d / t) + (t - 1) := by omega
    rw [hsplit, Nat.mul_add_div ht, Nat.div_eq_of_lt hlt, Nat.add_zero]
  · have hlt : d % t - 1 < t := (Nat.sub_le _ _).trans_lt (Nat.mod_lt d ht)
    have hsplit : d + t - 1 = t * (d / t + 1) + (d % t - 1) := by
      rw [Nat.mul_add]
      omega
    rw [hsplit, Nat.mul_add_div ht, Nat.div_eq_of_lt hlt, Nat.add_zero, Nat.add_sub_cancel]

/-- The deviation d from an even share, in twentieths (R233). -/
def deviation (dark total : Nat) : Nat := (20 * (dark : Int) - 10 * (total : Int)).natAbs

theorem deviation_le {dark total : Nat} (h : dark ≤ total) : deviation dark total ≤ 10 * total := by
  unfold deviation
  omega

/-- An odd total is never shared evenly. -/
theorem deviation_pos {total : Nat} (dark : Nat) (hodd : total % 2 = 1) : 0 < deviation dark total := by
  unfold deviation
  omega

theorem penaltyBalance_floor (n : Nat) (g : Grid) :
    penaltyBalance false n g = 10 * (deviation (darkCount g) (n * n) / (n * n)) := rfl

theorem penaltyBalance_ceil {n : Nat} (hn : 0 < n) (g : Grid) :
    penaltyBalance true n g
      = 10 * if deviation (darkCount g) (n * n) % (n * n) = 0 then deviation (darkCount g) (n * n) / (n * n) - 1
        else deviation (darkCount g) (n * n) / (n * n) :=
  congrArg (10 * ·) (ceil_sub_one _ (Nat.mul_pos hn hn))

/-- Settles O39: d is at most 10 times the total, and, the total being odd, not 0. -/
theorem balancePenaltyIsBounded : Obligations.BalancePenaltyIsBounded := by
  intro n g hodd hg
  have hpos : 0 < n := by omega
  have htotal : n * n % 2 = 1 := by rw [Nat.mul_mod, hodd]
  have hd := deviation_pos (darkCount g) htotal
  have hsteps : deviation (darkCount g) (n * n) / (n * n) ≤ 10 :=
    Nat.div_le_of_le_mul ((deviation_le (darkCount_le hg)).trans_eq (Nat.mul_comm 10 _))
  simp only [← darkCount_eq hg, penaltyBalance_floor, penaltyBalance_ceil hpos]
  rw [← deviation]
  refine ⟨rfl, by omega, fun h => by rw [if_neg h], fun h => ?_⟩
  have hquot : 0 < deviation (darkCount g) (n * n) / (n * n) :=
    Nat.div_pos (Nat.le_of_dvd hd (Nat.dvd_of_mod_eq_zero h)) (Nat.mul_pos hpos hpos)
  rw [if_pos h]
  omega

end Sys2Proof.Machine
end

section
/-! PROOFS. The mask search of S9 and the final application of S10 (spec/47_mask_and_penalty.md R235 to R241, O40, O41,
O42): what the format word leaves in each module, and what the two stages write. -/

namespace Sys2Proof.Machine

/-! ### S9 MSEL -/

theorem mem_formatPlaces {n x y : Nat} (hn : 21 ≤ n) : (x, y) ∈ formatPlaces n ↔ IsFormatCell n x y := by
  simp only [formatPlaces, mem_placesOf, mem_formatCells_zero hn, exists_and_left, exists_eq, and_true]

/-- Settles O40, by the specification of the mask search. -/
theorem mselPicksTheFirstMinimum : Obligations.MselPicksTheFirstMinimum := by
  intro s hauto hver hdrawn
  obtain ⟨d, k, hsel, hfirst, ⟨hm, hf⟩, hsize, hsame⟩ := autoSelect_spec s.cfg hdrawn
  have hside : d.size = 4 * s.work.ver + 17 := hsize
  refine ⟨d.m, d.f, k, ?_, hfirst, hside ▸ hm, hside ▸ hf,
    fun x y hxy => hsame x y (mt (mem_formatPlaces (le_sideOf hver)).1 hxy)⟩
  obtain ⟨-, h⟩ | ⟨hforced, -⟩ := execS9Msel_cases s
  · rw [hsel] at h
    exact h
  · exact absurd hauto hforced

/-- Settles O41: a forced mask is not -1. -/
theorem mselTakesAForcedMask : Obligations.MselTakesAForcedMask := by
  intro s k _ hk
  obtain ⟨hauto, -⟩ | ⟨-, h⟩ := execS9Msel_cases s
  · omega
  · rw [hk, Int.toNat_natCast] at h
    exact h

/-! ### S10 FINAL -/

/-- The colours after a drawing do not depend on the flags. -/
theorem setFnAll_m_congr (cells : List (Nat × Nat × Bool)) {c d : Canvas} (h : c.m = d.m) :
    (setFnAll cells c).m = (setFnAll cells d).m := by
  induction cells generalizing c d with
  | nil => exact h
  | cons p rest ih => exact ih (congrArg (fun m => Grid.set m p.1 p.2.1 p.2.2) h)

/-- A canvas with no function module. -/
def unflagged (c : Canvas) : Canvas := { c with f := Grid.blank c.size }

theorem unflagged_square {c : Canvas} (hm : c.m.square c.size = true) : (unflagged c).Square := ⟨hm, blank_square _⟩

theorem setFnAll_unflagged_m (cells : List (Nat × Nat × Bool)) (c : Canvas) :
    (setFnAll cells (unflagged c)).m = (setFnAll cells c).m := setFnAll_m_congr cells rfl

/-- A write leaves every other module, also in a grid of another shape. -/
theorem get_set_of_ne (g : Grid) {x y x' y' : Nat} (b : Bool) (h : ¬(x' = x ∧ y' = y)) :
    (g.set x y b).get x' y' = g.get x' y' := by
  unfold Grid.get Grid.set
  simp only [List.getD, List.getElem?_modify]
  by_cases hy : y = y'
  · have hx : x ≠ x' := fun hx => h ⟨hx.symm, hy.symm⟩
    cases hrow : g.rows[y']? <;> simp [hy, hx]
  · cases hrow : g.rows[y']? <;> simp [hy]

/-- A drawing leaves every module off its cells, also on grids of another shape. -/
theorem setFnAll_frame {cells : List (Nat × Nat × Bool)} (c : Canvas) {x y : Nat} (h : (x, y) ∉ placesOf cells) :
    (setFnAll cells c).m.get x y = c.m.get x y ∧ (setFnAll cells c).f.get x y = c.f.get x y := by
  induction cells generalizing c with
  | nil => exact ⟨rfl, rfl⟩
  | cons p rest ih =>
    simp only [placesOf, List.map_cons, List.mem_cons, not_or, Prod.mk.injEq] at h
    obtain ⟨hm, hf⟩ := ih (setFn p.1 p.2.1 p.2.2 c) h.2
    exact ⟨hm.trans (get_set_of_ne _ _ h.1), hf.trans (get_set_of_ne _ _ h.1)⟩

/-- Bit i of the format word stands at (x, y), on one of the two paths (R252). -/
def IsFormatBitCell (n i x y : Nat) : Prop := formatPath1[i]? = some (x, y) ∨ (formatPath2 n)[i]? = some (x, y)

theorem formatPath2_nodup {n : Nat} (hn : 21 ≤ n) : (formatPath2 n).Nodup := by
  simp [formatPath2]
  omega

theorem formatPaths_disjoint {n x y : Nat} (hn : 21 ≤ n) (h1 : (x, y) ∈ formatPath1) (h2 : (x, y) ∈ formatPath2 n) :
    False := by
  simp only [formatPath1, formatPath2, List.mem_cons, List.not_mem_nil, Prod.mk.injEq, or_false] at h1 h2
  omega

/-- No cell carries two bits of the format word. -/
theorem IsFormatBitCell.index_unique {n i j x y : Nat} (hn : 21 ≤ n) (hi : IsFormatBitCell n i x y)
    (hj : IsFormatBitCell n j x y) : i = j := by
  have hsame {l : List (Nat × Nat)} (hl : l.Nodup) (hi : l[i]? = some (x, y)) (hj : l[j]? = some (x, y)) : i = j := by
    obtain ⟨hlt, -⟩ := List.getElem?_eq_some_iff.1 hi
    exact (List.getElem?_inj hlt hl).1 (hi.trans hj.symm)
  rcases hi with hi | hi <;> rcases hj with hj | hj
  · exact hsame (by decide) hi hj
  · exact (formatPaths_disjoint hn (List.mem_of_getElem? hi) (List.mem_of_getElem? hj)).elim
  · exact (formatPaths_disjoint hn (List.mem_of_getElem? hj) (List.mem_of_getElem? hi)).elim
  · exact hsame (formatPath2_nodup hn) hi hj

theorem IsFormatBitCell.mem_path {n i x y : Nat} (h : IsFormatBitCell n i x y) :
    (x, y) ∈ formatPath1 ∨ (x, y) ∈ formatPath2 n := h.imp List.mem_of_getElem? List.mem_of_getElem?

/-- The cells of a format word: those of its bits, and the dark module (R252). -/
theorem mem_formatCells {n x y : Nat} {w : BitVec 15} {b : Bool} (hn : 21 ≤ n) :
    (x, y, b) ∈ formatCells n w
      ↔ (∃ i, IsFormatBitCell n i x y ∧ w.getLsbD i = b) ∨ (x, y, b) = (8, n - 8, true) := by
  have hpath {cell : Nat → Nat × Nat} {path : List (Nat × Nat)} (h : (List.range 15).map cell = path) :
      (x, y, b) ∈ (List.range 15).map (fun i => ((cell i).1, (cell i).2, w.getLsbD i))
        ↔ ∃ i, path[i]? = some (x, y) ∧ w.getLsbD i = b := by
    have hget (i : Nat) : path[i]? = some (x, y) ↔ i < 15 ∧ cell i = (x, y) := by
      simp [← h, List.getElem?_eq_some_iff]
    simp [hget, Prod.ext_iff, and_assoc]
  simp only [formatCells, List.mem_append, hpath map_formatCell1, hpath (map_formatCell2 hn), List.mem_singleton,
    IsFormatBitCell, or_and_right, exists_or]

theorem formatCells_inGrid {n x y : Nat} {w : BitVec 15} {b : Bool} (hn : 21 ≤ n) (h : (x, y, b) ∈ formatCells n w) :
    x < n ∧ y < n := by
  have hplace : (x, y) ∈ formatPlaces n := placesOf_formatCells n w ▸ mem_placesOf.2 ⟨b, h⟩
  exact (((mem_formatPlaces hn).1 hplace).place hn).1

/-- A format word gives each of its cells one colour. -/
theorem formatCells_colour_unique {n x y : Nat} {w : BitVec 15} {b b' : Bool} (hn : 21 ≤ n)
    (h : (x, y, b) ∈ formatCells n w) (h' : (x, y, b') ∈ formatCells n w) : b' = b := by
  have hoff {i : Nat} {a : Bool} (hi : IsFormatBitCell n i x y) (ha : (x, y, a) = (8, n - 8, true)) : False := by
    simp only [Prod.mk.injEq] at ha
    exact (formatPath_place hn hi.mem_path).2.1 ⟨ha.1, ha.2.1⟩
  obtain ⟨i, hi, rfl⟩ | hdark := (mem_formatCells hn).1 h <;>
    obtain ⟨j, hj, rfl⟩ | hdark' := (mem_formatCells hn).1 h'
  · rw [hj.index_unique hn hi]
  · exact (hoff hi hdark').elim
  · exact (hoff hj hdark).elim
  · cases hdark
    cases hdark'
    rfl

/-- After a format word is drawn, its cells have its colours (R252). -/
theorem drawFormatBitsWord_colour {w : BitVec 15} {c : Canvas} (hm : c.m.square c.size = true) (hn : 21 ≤ c.size)
    {x y : Nat} {b : Bool} (h : (x, y, b) ∈ formatCells c.size w) : (drawFormatBitsWord w c).m.get x y = b := by
  obtain ⟨hx, hy⟩ := formatCells_inGrid hn h
  rw [drawFormatBitsWord, ← setFnAll_unflagged_m]
  exact setFnAll_colour (unflagged_square hm) hx hy (fun b' => formatCells_colour_unique hn h)
    fun hout => absurd (mem_placesOf.2 ⟨b, h⟩) hout

/-- A format word leaves every other module. -/
theorem drawFormatBitsWord_frame (w : BitVec 15) (c : Canvas) (hn : 21 ≤ c.size) {x y : Nat}
    (h : ¬IsFormatCell c.size x y) :
    (drawFormatBitsWord w c).m.get x y = c.m.get x y ∧ (drawFormatBitsWord w c).f.get x y = c.f.get x y := by
  refine setFnAll_frame c ?_
  rw [placesOf_formatCells, mem_formatPlaces hn]
  exact h

theorem drawFormatBitsWord_square (w : BitVec 15) {c : Canvas} (hm : c.m.square c.size = true) :
    (drawFormatBitsWord w c).m.square c.size = true := by
  obtain ⟨-, hsq, -⟩ := setFnAll_square (formatCells c.size w) (unflagged c) hm (blank_square _)
  rw [drawFormatBitsWord, ← setFnAll_unflagged_m]
  exact hsq

/-- The grids of S10: the masked ones with the format word drawn over them (R238). -/
theorem finalCanvas_eq (w : Work) :
    finalCanvas w = drawFormatBitsWord (formatWord w.ecl w.bestMask) (applyMask w.bestMask (canvasOf w)) := rfl

/-- S10 writes M, F, SYM and STAGE only (R241). -/
theorem exec_s10Final (s : State) :
    exec .s10Final s = .next { s with
      stage := .s0, work := { s.work with m := (finalCanvas s.work).m, f := (finalCanvas s.work).f },
      sym := { valid := true, version := s.work.ver, ecl := s.work.ecl, size := 4 * s.work.ver + 17,
               mask := s.work.bestMask, modules := (finalCanvas s.work).m } } := by
  refine (execS10Final_eq s).trans ?_
  rw [finalState, finalSym]
  generalize finalCanvas s.work = c
  rfl

/-- Settles O42: S10 draws the format word over the masked canvas, whose side and colours are known. -/
theorem finalCommitsTheMaskedSymbol : Obligations.FinalCommitsTheMaskedSymbol := by
  intro s hver
  have hn : 21 ≤ 4 * s.work.ver + 17 := le_sideOf hver
  refine ⟨(finalCanvas s.work).m, (finalCanvas s.work).f, exec_s10Final s, ?_⟩
  rw [finalCanvas_eq]
  generalize hc : applyMask s.work.bestMask (canvasOf s.work) = c
  have hsize : c.size = 4 * s.work.ver + 17 := by rw [← hc]; rfl
  have hm : c.m.square c.size = true := by rw [← hc]; exact build_square _ _
  rw [← hsize] at hn ⊢
  have hdark : 4 * s.work.ver + 9 = c.size - 8 := by omega
  refine ⟨drawFormatBitsWord_square _ hm, fun x y hx hy hxy => ?_, fun i x y hi => ?_, ?_⟩
  · obtain ⟨hframe, hflag⟩ := drawFormatBitsWord_frame (formatWord s.work.ecl s.work.bestMask) c hn hxy
    have hin : x < (canvasOf s.work).size ∧ y < (canvasOf s.work).size := by
      rw [hsize] at hx hy
      exact ⟨hx, hy⟩
    rw [hframe, hflag, ← hc, applyMask_get, decide_eq_true hin, Bool.true_and, maskedModule_eq_xor]
    exact ⟨rfl, rfl⟩
  · exact drawFormatBitsWord_colour hm hn ((mem_formatCells hn).2 (.inl ⟨i, hi, rfl⟩))
  · rw [hdark]
    exact drawFormatBitsWord_colour hm hn ((mem_formatCells hn).2 (.inr rfl))

end Sys2Proof.Machine
end

section
/-! PROOFS. Format and version information: the tabulated words, and the cells in which a drawn word stands
(spec/48_format_version_info.md R251 to R254). -/

namespace Sys2Proof.Machine

/-- Settles O30, by computing the words. -/
theorem formatAndVersionWordTables : Obligations.FormatAndVersionWordTables := by
  refine ⟨?_, ?_, ?_, ?_, ?_⟩
  · decide
  · decide
  · decide
  · decide
  · decide

/-- A cell inside the grid to which a drawing gives one colour has that colour afterwards, and is flagged. -/
theorem setFnAll_sets {cells : List (Nat × Nat × Bool)} {c : Canvas} (hc : c.Square) {x y : Nat} {b : Bool}
    (hx : x < c.size) (hy : y < c.size) (h : (x, y, b) ∈ cells) (hunique : ∀ b', (x, y, b') ∈ cells → b' = b) :
    (setFnAll cells c).m.get x y = b ∧ (setFnAll cells c).f.get x y = true :=
  have hplace : (x, y) ∈ placesOf cells := mem_placesOf.2 ⟨b, h⟩
  ⟨setFnAll_colour hc hx hy hunique fun hout => absurd hplace hout,
    (setFnAll_flag_iff hc x y).2 (.inl ⟨hplace, hx, hy⟩)⟩

/-- A drawn format word sets each of its cells (R252). -/
theorem drawFormatBitsWord_sets {w : BitVec 15} {c : Canvas} (hc : c.Square) (hn : 21 ≤ c.size) {x y : Nat} {b : Bool}
    (h : (x, y, b) ∈ formatCells c.size w) :
    (drawFormatBitsWord w c).m.get x y = b ∧ (drawFormatBitsWord w c).f.get x y = true := by
  obtain ⟨hx, hy⟩ := formatCells_inGrid hn h
  exact setFnAll_sets hc hx hy h fun _ => formatCells_colour_unique hn h

/-- Settles O31: the cells of a format word are those of its bits and the dark module, each with one colour. -/
theorem formatWordStandsOnBothPaths : Obligations.FormatWordStandsOnBothPaths := by
  intro c w hn hm hf
  have hsets {x y : Nat} {b : Bool} (h : (x, y, b) ∈ formatCells c.size w) := drawFormatBitsWord_sets ⟨hm, hf⟩ hn h
  obtain ⟨hdark, hdarkFlag⟩ := hsets ((mem_formatCells hn).2 (.inr rfl))
  exact ⟨fun i x y hi => hsets ((mem_formatCells hn).2 (.inl ⟨i, hi, rfl⟩)), hdark, hdarkFlag,
    fun x y h => drawFormatBitsWord_frame w c hn h⟩

/-- A drawn version word sets each of its cells (R254). -/
theorem drawVersion_sets {v : Nat} {c : Canvas} (hc : c.Square) (hsize : c.size = sideOf v) {x y : Nat} {b : Bool}
    (h : (x, y, b) ∈ versionPattern v) : (drawVersion v c).m.get x y = b ∧ (drawVersion v c).f.get x y = true := by
  obtain ⟨hcell, hcolour⟩ := mem_versionPattern.1 h
  have hin : x < c.size ∧ y < c.size := by
    rw [hsize, sideOf]
    unfold IsVersionCell at hcell
    omega
  rw [drawVersion_eq]
  exact setFnAll_sets hc hin.1 hin.2 h fun _ h' => (mem_versionPattern.1 h').2.trans hcolour.symm

/-- A version word leaves every other module. -/
theorem drawVersion_frame (c : Canvas) {v x y : Nat} (h : ¬IsVersionCell v x y) :
    (drawVersion v c).m.get x y = c.m.get x y ∧ (drawVersion v c).f.get x y = c.f.get x y := by
  rw [drawVersion_eq]
  refine setFnAll_frame c fun hplace => ?_
  obtain ⟨b, hb⟩ := mem_placesOf.1 hplace
  exact h (mem_versionPattern.1 hb).1

/-- Bit i of the version word is set in both blocks, at transposed cells (R254). -/
theorem versionBit_mem_versionPattern {v i : Nat} (hv : 7 ≤ v) (hi : i < 18) :
    (4 * v + 6 + i % 3, i / 3, (versionWord v).getLsbD i) ∈ versionPattern v
      ∧ (i / 3, 4 * v + 6 + i % 3, (versionWord v).getLsbD i) ∈ versionPattern v := by
  simp only [mem_versionPattern]
  constructor
  · exact ⟨⟨hv, by omega⟩, congrArg (versionWord v).getLsbD (by omega)⟩
  · exact ⟨⟨hv, by omega⟩, congrArg (versionWord v).getLsbD (by omega)⟩

/-- Settles O32: below version 7 there is no version word, and from there on its cells are those of the two blocks. -/
theorem versionWordStandsInBothBlocks : Obligations.VersionWordStandsInBothBlocks := by
  refine ⟨fun v c hv => if_neg (by omega), fun v c hv hsize hm hf => ?_⟩
  have hlo : c.size - 11 = 4 * v + 6 := by omega
  have hhi : c.size - 9 = 4 * v + 8 := by omega
  rw [hlo, hhi]
  refine ⟨fun i hi => ?_, fun x y htop hleft => drawVersion_frame c ?_⟩
  · obtain ⟨htop, hleft⟩ := versionBit_mem_versionPattern hv hi
    exact ⟨drawVersion_sets ⟨hm, hf⟩ hsize htop, drawVersion_sets ⟨hm, hf⟩ hsize hleft⟩
  · unfold IsVersionCell
    omega

end Sys2Proof.Machine
end

section
/-! PROOFS. The outcome of an encode command: which one its inputs give, and what it leaves behind (spec/49_commands.md
R260 to R262, spec/60_exceptions.md R284, R292; O43, O44, O47, O53, O54). -/

namespace Sys2Proof.Machine

/-! ### The Symbol of a segment list is unique -/

theorem ord_toNat_injective {l l' : Level} (h : l.ord.toNat = l'.ord.toNat) : l = l' := by
  rw [← levelOfOrd_ord l, BitVec.eq_of_toNat_eq h, levelOfOrd_ord]

theorem IsFinalLevel.unique {v used : Nat} {ecc l l' : Level} {boost : Bool} (h : IsFinalLevel v used ecc boost l)
    (h' : IsFinalLevel v used ecc boost l') : l = l' := by
  cases boost
  · exact (show l = ecc from h).trans (show l' = ecc from h').symm
  · obtain ⟨hl, -, hmax⟩ := h
    obtain ⟨hl', -, hmax'⟩ := h'
    exact ord_toNat_injective (Nat.le_antisymm (hmax' l hl) (hmax l' hl'))

theorem IsFirstBest.unique {p : Nat → Nat} {k k' : Nat} (h : IsFirstBest p k) (h' : IsFirstBest p k') : k = k' := by
  obtain ⟨hk, hmin, hfirst⟩ := h
  obtain ⟨hk', hmin', hfirst'⟩ := h'
  obtain hlt | heq | hlt := Nat.lt_trichotomy k k'
  · exact absurd (hmin k' hk') (Nat.not_le.mpr (hfirst' k hlt))
  · exact heq
  · exact absurd (hmin' k hk) (Nat.not_le.mpr (hfirst k' hlt))

theorem IsMaskChoice.unique {cfg : Cfg} {mask : Int} {l : Level} {c : Canvas} {k k' : Nat}
    (h : IsMaskChoice cfg mask l c k) (h' : IsMaskChoice cfg mask l c k') : k = k' := by
  unfold IsMaskChoice at h h'
  split at h
  · rw [if_pos ‹_›] at h'
    exact h.unique h'
  · rw [if_neg ‹_›] at h'
    omega

/-- The rules give at most one Symbol for a segment list: the first version, the highest level and the first of the
best masks are each unique. -/
theorem IsSymbolOf.unique {cfg : Cfg} {segs : List Segment} {ecc : Level} {minv maxv : Nat} {mask : Int} {boost : Bool}
    {y y' : Sym} (h : IsSymbolOf cfg segs ecc minv maxv mask boost y)
    (h' : IsSymbolOf cfg segs ecc minv maxv mask boost y') : y = y' := by
  obtain ⟨v, l, k, ⟨hlo, -, hfit, hfirst⟩, hlevel, hmask, rfl⟩ := h
  obtain ⟨v', l', k', ⟨hlo', -, hfit', hfirst'⟩, hlevel', hmask', rfl⟩ := h'
  obtain rfl : v = v' := by
    obtain hlt | heq | hlt := Nat.lt_trichotomy v v'
    · exact absurd hfit (hfirst' v hlo hlt)
    · exact heq
    · exact absurd hfit' (hfirst v' hlo' hlt)
  obtain rfl := hlevel.unique hlevel'
  obtain rfl := hmask.unique hmask'
  rfl

theorem IsSymbolOf.valid {cfg : Cfg} {segs : List Segment} {ecc : Level} {minv maxv : Nat} {mask : Int} {boost : Bool}
    {y : Sym} (h : IsSymbolOf cfg segs ecc minv maxv mask boost y) : y.valid = true := by
  obtain ⟨v, l, k, -, -, -, rfl⟩ := h
  rfl

/-! ### The end of an encode command -/

/-- What an encode command leaves behind: after an error no Symbol, and else the Symbol; nothing of the host's side and
not RESULT is written (R260, R284). -/
def EncodeEnds (s : State) : Except Cause Sym → State → Prop
  | .error c, t => EndsRaised c t ∧ t.sym = { s.sym with valid := false } ∧ SameHostSide s t ∧ t.result = s.result
  | .ok y, t => (EndsWell t ∧ t.sym = y ∧ y.valid = true) ∧ SameHostSide s t ∧ t.result = s.result

/-- An encode command is executing, and since its start has written the working state and STAGE only (R260). -/
def EncodeStarted (s u : State) : Prop :=
  (u.busy = true ∧ u.err = false ∧ u.sym = { s.sym with valid := false }) ∧ SameHostSide s u ∧ u.result = s.result

theorem startEncode_started (w : Word) (s : State) : EncodeStarted s (startEncode w s) :=
  ⟨⟨rfl, rfl, rfl⟩, .refl s, rfl⟩

theorem enctxtStart_started (ecc : Level) (s : State) : EncodeStarted s (enctxtStart ecc s) :=
  startEncode_started (encodeEnctxt ecc) s

theorem encsegStart_started (ecc : Level) (minv maxv : Nat) (mask : Int) (boost : Bool) (segs : List Segment)
    (s : State) : EncodeStarted s (encsegStart ecc minv maxv mask boost segs s) :=
  startEncode_started (encodeEncseg ecc minv maxv mask boost) s

theorem EncodeStarted.finish_raise {s u : State} (h : EncodeStarted s u) (c : Cause) :
    ∃ t, finish (.next (raise c u)) = .next t ∧ EncodeEnds s (.error c) t := by
  obtain ⟨⟨-, -, hsym⟩, hhost, hresult⟩ := h
  exact ⟨_, finish_next_idle rfl, ⟨rfl, rfl, rfl, rfl, rfl⟩, hsym, hhost, hresult⟩

theorem EncodeStarted.finish_commit {s u : State} (h : EncodeStarted s u) (w : Work) {y : Sym} (hy : y.valid = true) :
    ∃ t, finish (.next (setStage .s0 (commit y (setWork w u)))) = .next t ∧ EncodeEnds s (.ok y) t := by
  obtain ⟨⟨hbusy, herr, -⟩, hhost, hresult⟩ := h
  exact ⟨_, finish_next_busy hbusy, ⟨⟨rfl, rfl, rfl, herr, rfl⟩, rfl, hy⟩, hhost, hresult⟩

/-- An outcome determines what the host reads, and the Symbol where one is held. -/
theorem EncodeEnds.same_readings {s s' t t' : State} {o : Except Cause Sym} (h : EncodeEnds s o s')
    (h' : EncodeEnds t o t') : readReg 1 t' = readReg 1 s' ∧ readReg 2 t' = readReg 2 s' ∧ readReg 6 t' = readReg 6 s'
      ∧ (s'.sym.valid = true → t'.sym = s'.sym) := by
  cases o with
  | error c =>
    obtain ⟨⟨hb, -, hd, he, hc⟩, hsym, -⟩ := h
    obtain ⟨⟨hb', -, hd', he', hc'⟩, hsym', -⟩ := h'
    simp [readReg, statusWord, syminfoWord, *]
  | ok y =>
    obtain ⟨⟨⟨hb, -, hd, he, hc⟩, hsym, -⟩, -⟩ := h
    obtain ⟨⟨⟨hb', -, hd', he', hc'⟩, hsym', -⟩, -⟩ := h'
    simp [readReg, statusWord, syminfoWord, *]

/-- An outcome is an error and no Symbol, or a Symbol and no error. -/
theorem EncodeEnds.error_or_symbol {s t : State} {o : Except Cause Sym} (h : EncodeEnds s o t) :
    t.busy = false ∧ t.stage = .s0 ∧ t.done = true
      ∧ ((t.err = false ∧ t.errcode = 0 ∧ t.sym.valid = true)
        ∨ (t.err = true ∧ (∃ c : Cause, t.errcode = c.code) ∧ t.sym.valid = false)) := by
  cases o with
  | error c =>
    obtain ⟨⟨hb, hstage, hd, he, hc⟩, hsym, -⟩ := h
    exact ⟨hb, hstage, hd, .inr ⟨he, ⟨c, hc⟩, by rw [hsym]⟩⟩
  | ok y =>
    obtain ⟨⟨⟨hb, hstage, hd, he, hc⟩, rfl, hy⟩, -⟩ := h
    exact ⟨hb, hstage, hd, .inl ⟨he, hc, hy⟩⟩

/-! ### The outcome of a segment list -/

/-- The outcome of the stages S2 to S10 on a segment list (R147, R150, R261, R262). -/
inductive SegmentsOutcome (cfg : Cfg) (segs : List Segment) (ecc : Level) (minv maxv : Nat) (mask : Int)
    (boost : Bool) : Except Cause Sym → Prop
  | noVersionFits : (∀ v, minv ≤ v → v ≤ maxv → ¬Fits segs ecc v) →
      SegmentsOutcome cfg segs ecc minv maxv mask boost (.error .noVersionFits)
  | symbol (y : Sym) : IsSymbolOf cfg segs ecc minv maxv mask boost y →
      SegmentsOutcome cfg segs ecc minv maxv mask boost (.ok y)

theorem andThen_raise (c : Cause) (s : State) (f : State → Out) : andThen (.next (raise c s)) f = .next (raise c s) :=
  andThen_next_idle f rfl

/-- Where S2 finds no version, the stages after it do not run. -/
theorem runFromS2_noVersionFits {s : State}
    (h : ∀ v, s.work.minv ≤ v → v ≤ s.work.maxv → ¬Fits s.work.segs s.work.reqEcl v) :
    runFromS2 s = .next (raise .noVersionFits s) := by
  simp only [runFromS2, execS2Vsel_noVersionFits h, andThen_raise]

/-- A segment list has an outcome. -/
theorem exists_segmentsOutcome {u : State} (hb : u.busy = true) (hm : -1 ≤ u.work.fmask) :
    ∃ o, SegmentsOutcome u.cfg u.work.segs u.work.reqEcl u.work.minv u.work.maxv u.work.fmask u.work.boosten o := by
  by_cases hfit : ∃ v, u.work.minv ≤ v ∧ v ≤ u.work.maxv ∧ Fits u.work.segs u.work.reqEcl v
  · obtain ⟨w, y, -, hy⟩ := runFromS2_symbol hb hm hfit
    exact ⟨_, .symbol y hy⟩
  · exact ⟨_, .noVersionFits fun v hlo hhi h => hfit ⟨v, hlo, hhi, h⟩⟩

/-- Stages S2 to S10 end with the outcome of their segments. -/
theorem finish_runFromS2_ends {s u : State} {o : Except Cause Sym} (hu : EncodeStarted s u) (hm : -1 ≤ u.work.fmask)
    (h : SegmentsOutcome u.cfg u.work.segs u.work.reqEcl u.work.minv u.work.maxv u.work.fmask u.work.boosten o) :
    ∃ t, finish (runFromS2 u) = .next t ∧ EncodeEnds s o t := by
  cases h with
  | noVersionFits hnone =>
    rw [runFromS2_noVersionFits hnone]
    exact hu.finish_raise _
  | symbol y hy =>
    have ⟨⟨hbusy, _, _⟩, _, _⟩ := hu
    have ⟨v, _, _, ⟨hlo, hhi, hfit, _⟩, _⟩ := hy
    obtain ⟨w, y', hrun, hy'⟩ := runFromS2_symbol hbusy hm ⟨v, hlo, hhi, hfit⟩
    obtain rfl := hy.unique hy'
    rw [hrun]
    exact hu.finish_commit w hy.valid

/-! ### ENCTXT -/

/-- The outcome of ENCTXT on a text, in the order of its checks (R261, R292). A text with an element that was never
written has none (R75). -/
inductive TextOutcome (cfg : Cfg) (len : BitVec 16) (text : Buffer 16) (ecc : Level) : Except Cause Sym → Prop
  | lenRange : cfg.textMax < len.toNat → TextOutcome cfg len text ecc (.error .lenRange)
  | loneSurrogate (units : List CodeUnit) : len.toNat = units.length → units.length ≤ cfg.textMax →
      text.Holds 0 units → utf8Expand cfg.loneSurrogate units = none →
      TextOutcome cfg len text ecc (.error .loneSurrogate)
  | segment (units : List CodeUnit) (bs : List Byte) (o : Except Cause Sym) : len.toNat = units.length →
      units.length ≤ cfg.textMax → text.Holds 0 units → utf8Expand cfg.loneSurrogate units = some bs →
      SegmentsOutcome cfg [makeByteSegment bs] ecc 1 40 (-1) true o → TextOutcome cfg len text ecc o

/-- Where S1 raises, the stages after it do not run. -/
theorem execEnctxt_of_raise {ecc : Level} {s : State} {c : Cause}
    (h : execS1Segb (enctxtStart ecc s) = .next (raise c (enctxtStart ecc s))) :
    ∃ t, execEnctxt ecc s = .next t ∧ EncodeEnds s (.error c) t := by
  have hrun : execEnctxt ecc s = finish (.next (raise c (enctxtStart ecc s))) :=
    congrArg (fun o => finish (andThen o runFromS2)) h
  rw [hrun]
  exact (enctxtStart_started ecc s).finish_raise c

/-- ENCTXT ends with the outcome of its text. -/
theorem execEnctxt_ends {s : State} {ecc : Level} {o : Except Cause Sym}
    (h : TextOutcome s.cfg s.textlen s.text ecc o) : ∃ t, execEnctxt ecc s = .next t ∧ EncodeEnds s o t := by
  cases h with
  | lenRange hlen => exact execEnctxt_of_raise (execS1Segb_lenRange hlen)
  | loneSurrogate units hlen hmax htext hexp =>
    exact execEnctxt_of_raise (execS1Segb_loneSurrogate (s := enctxtStart ecc s) hlen hmax htext hexp)
  | segment units bs o hlen hmax htext hexp ho =>
    rw [execEnctxt_eq_finish ecc hlen hmax htext hexp]
    exact finish_runFromS2_ends
      (u := withCmd (encodeEnctxt ecc) (encsegStart ecc 1 40 (-1) true [makeByteSegment bs] s))
      (encsegStart_started ecc 1 40 (-1) true [makeByteSegment bs] s) (le_refl (-1)) ho

/-- An ENCTXT that is not refused has read a text that has an outcome. -/
theorem execEnctxt_outcome {s t : State} {ecc : Level} (h : execEnctxt ecc s = .next t) :
    ∃ o, TextOutcome s.cfg s.textlen s.text ecc o := by
  obtain hlen | hlen := Nat.lt_or_ge s.cfg.textMax s.textlen.toNat
  · exact ⟨_, .lenRange hlen⟩
  cases hread : s.text.readRun 0 s.textlen.toNat with
  | error i =>
    rw [execEnctxt_refused ecc hlen hread] at h
    cases h
  | ok units =>
    obtain ⟨hn, htext⟩ := (readRun_ok_iff ..).mp hread
    cases hexp : utf8Expand s.cfg.loneSurrogate units with
    | none => exact ⟨_, .loneSurrogate units hn.symm (hn ▸ hlen) htext hexp⟩
    | some bs =>
      obtain ⟨o, ho⟩ := exists_segmentsOutcome
        (u := encsegStart ecc 1 40 (-1) true [makeByteSegment bs] s) rfl (le_refl (-1))
      exact ⟨o, .segment units bs o hn.symm (hn ▸ hlen) htext hexp ho⟩

/-- An ENCTXT that goes on ends with the outcome of its text. -/
theorem execEnctxt_next {s t : State} {ecc : Level} (h : execEnctxt ecc s = .next t) :
    ∃ o, TextOutcome s.cfg s.textlen s.text ecc o ∧ EncodeEnds s o t := by
  obtain ⟨o, ho⟩ := execEnctxt_outcome h
  obtain ⟨t', h', hend⟩ := execEnctxt_ends ho
  obtain rfl : t = t' := by simpa [h] using h'
  exact ⟨o, ho, hend⟩

/-! ### ENCSEG -/

/-- The outcome of ENCSEG on its operands and buffers, in the order of its checks (R262, R292). Buffers with an element
that is read and was never written have none (R75). -/
inductive TableOutcome (cfg : Cfg) (n : BitVec 8) (segtab : Buffer 32) (segdata : Buffer 8) (ecc : Level)
    (minv maxv : Nat) (mask : Int) (boost : Bool) : Except Cause Sym → Prop
  | versionRange : ¬VersionsInRange minv maxv →
      TableOutcome cfg n segtab segdata ecc minv maxv mask boost (.error .versionRange)
  | maskRange : VersionsInRange minv maxv → ¬MaskInRange mask →
      TableOutcome cfg n segtab segdata ecc minv maxv mask boost (.error .maskRange)
  | countRange : VersionsInRange minv maxv → MaskInRange mask → cfg.segMax < n.toNat →
      TableOutcome cfg n segtab segdata ecc minv maxv mask boost (.error .lenRange)
  | lenRange (tab : List Word) : VersionsInRange minv maxv → MaskInRange mask → n.toNat = tab.length →
      tab.length ≤ cfg.segMax → segtab.Holds 0 tab → 8 * cfg.segdataBytes < totalBitLen tab →
      TableOutcome cfg n segtab segdata ecc minv maxv mask boost (.error .lenRange)
  | segments (tab : List Word) (bytes : List Byte) (o : Except Cause Sym) : VersionsInRange minv maxv →
      MaskInRange mask → n.toNat = tab.length → tab.length ≤ cfg.segMax → segtab.Holds 0 tab →
      totalBitLen tab ≤ 8 * cfg.segdataBytes → bytes.length = (totalBitLen tab + 7) / 8 → segdata.Holds 0 bytes →
      SegmentsOutcome cfg (cutSegments tab (bytesBits bytes)) ecc minv maxv mask boost o →
      TableOutcome cfg n segtab segdata ecc minv maxv mask boost o

section
variable {ecc : Level} {minv maxv : Nat} {mask : Int} {boost : Bool} {s : State}

/-- ENCSEG ends with what it raises before S2. -/
theorem execEncseg_of_raise {c : Cause} (h : runEncSeg ecc minv maxv mask boost
        (startEncode (encodeEncseg ecc minv maxv mask boost) s)
      = .next (raise c (startEncode (encodeEncseg ecc minv maxv mask boost) s))) :
    ∃ t, execEncseg ecc minv maxv mask boost s = .next t ∧ EncodeEnds s (.error c) t := by
  rw [execEncseg, h]
  exact (startEncode_started _ s).finish_raise c

/-- ENCSEG on operands in range ends with what its load raises. -/
theorem execEncseg_of_load_raise {c : Cause} (hv : VersionsInRange minv maxv) (hm : MaskInRange mask)
    (h : ∀ k, loadSegments (startEncode (encodeEncseg ecc minv maxv mask boost) s) k
      = .next (raise c (startEncode (encodeEncseg ecc minv maxv mask boost) s))) :
    ∃ t, execEncseg ecc minv maxv mask boost s = .next t ∧ EncodeEnds s (.error c) t := by
  refine execEncseg_of_raise ?_
  rw [runEncSeg, if_neg (not_not.mpr hv), if_neg (not_not.mpr hm), h]

/-- ENCSEG's load checks NSEG before it reads. -/
theorem loadSegments_countRange (h : s.cfg.segMax < s.nseg.toNat) (k : List Segment → Out) :
    loadSegments s k = .next (raise .lenRange s) := if_pos h

/-- ENCSEG's load checks the lengths of SEGTAB before it reads SEGDATA. -/
theorem loadSegments_lenRange {tab : List Word} (hn : s.nseg.toNat = tab.length) (hmax : tab.length ≤ s.cfg.segMax)
    (htab : s.segtab.Holds 0 tab) (htotal : 8 * s.cfg.segdataBytes < totalBitLen tab) (k : List Segment → Out) :
    loadSegments s k = .next (raise .lenRange s) := by
  have hread : s.segtab.readRun 0 tab.length = .ok tab := (readRun_ok_iff ..).mpr ⟨rfl, htab⟩
  simp only [loadSegments, hn, Nat.not_lt.mpr hmax, htotal, if_true, if_false, hread]

/-- ENCSEG ends with the outcome of its operands and buffers. -/
theorem execEncseg_ends {o : Except Cause Sym}
    (h : TableOutcome s.cfg s.nseg s.segtab s.segdata ecc minv maxv mask boost o) :
    ∃ t, execEncseg ecc minv maxv mask boost s = .next t ∧ EncodeEnds s o t := by
  cases h with
  | versionRange hv => exact execEncseg_of_raise (if_pos hv)
  | maskRange hv hm => exact execEncseg_of_raise ((if_neg (not_not.mpr hv)).trans (if_pos hm))
  | countRange hv hm hn => exact execEncseg_of_load_raise hv hm (loadSegments_countRange hn)
  | lenRange tab hv hm hn hmax htab htotal =>
    exact execEncseg_of_load_raise hv hm (loadSegments_lenRange hn hmax htab htotal)
  | segments tab bytes o hv hm hn hmax htab htotal hlen hbytes ho =>
    rw [execEncseg_eq_finish hv hm fun k => loadSegments_eq k hn hmax htab htotal hlen hbytes]
    exact finish_runFromS2_ends (encsegStart_started ..) hm.1 ho

/-- An ENCSEG that is not refused has operands and buffers that have an outcome. -/
theorem execEncseg_outcome {t : State} (h : execEncseg ecc minv maxv mask boost s = .next t) :
    ∃ o, TableOutcome s.cfg s.nseg s.segtab s.segdata ecc minv maxv mask boost o := by
  by_cases hv : VersionsInRange minv maxv
  swap
  · exact ⟨_, .versionRange hv⟩
  by_cases hm : MaskInRange mask
  swap
  · exact ⟨_, .maskRange hv hm⟩
  obtain hn | hn := Nat.lt_or_ge s.cfg.segMax s.nseg.toNat
  · exact ⟨_, .countRange hv hm hn⟩
  cases hreadTab : s.segtab.readRun 0 s.nseg.toNat with
  | error i =>
    rw [execEncseg_refused hv hm (loadSegments_refused_segtab hn hreadTab)] at h
    cases h
  | ok tab =>
    obtain ⟨htabLen, htab⟩ := (readRun_ok_iff ..).mp hreadTab
    obtain htotal | htotal := Nat.lt_or_ge (8 * s.cfg.segdataBytes) (totalBitLen tab)
    · exact ⟨_, .lenRange tab hv hm htabLen.symm (htabLen ▸ hn) htab htotal⟩
    cases hread : s.segdata.readRun 0 ((totalBitLen tab + 7) / 8) with
    | error i =>
      rw [execEncseg_refused hv hm (loadSegments_refused_segdata hn hreadTab htotal hread)] at h
      cases h
    | ok bytes =>
      obtain ⟨hlen, hbytes⟩ := (readRun_ok_iff ..).mp hread
      obtain ⟨o, ho⟩ := exists_segmentsOutcome
        (u := encsegStart ecc minv maxv mask boost (cutSegments tab (bytesBits bytes)) s) rfl hm.1
      exact ⟨o, .segments tab bytes o hv hm htabLen.symm (htabLen ▸ hn) htab htotal hlen hbytes ho⟩

/-- An ENCSEG that goes on ends with the outcome of its operands and buffers. -/
theorem execEncseg_next {t : State} (h : execEncseg ecc minv maxv mask boost s = .next t) :
    ∃ o, TableOutcome s.cfg s.nseg s.segtab s.segdata ecc minv maxv mask boost o ∧ EncodeEnds s o t := by
  obtain ⟨o, ho⟩ := execEncseg_outcome h
  obtain ⟨t', h', hend⟩ := execEncseg_ends ho
  obtain rfl : t = t' := by simpa [h] using h'
  exact ⟨o, ho, hend⟩

end

/-! ### The bytes of a text and the versions -/

theorem byteSegment_fits_iff (bs : List Byte) (l : Level) (v : Nat) : Fits [makeByteSegment bs] l v ↔
    bs.length < 2 ^ countFieldWidth v ∧ 4 + countFieldWidth v + 8 * bs.length ≤ dataCapacityBits v l := by
  simp [Fits, CountsFit, dataStream_length, makeByteSegment]

/-- Version 40 holds the longest text of a level (R151). -/
theorem maxTextBytes_fits : ∀ l ∈ allLevels,
    maxTextBytes l < 2 ^ countFieldWidth 40 ∧ 4 + countFieldWidth 40 + 8 * maxTextBytes l ≤ dataCapacityBits 40 l := by
  decide

/-- No version holds one byte more (R151). -/
theorem maxTextBytes_succ_exceeds : ∀ v ∈ List.range' 1 40, ∀ l ∈ allLevels,
    dataCapacityBits v l < 4 + countFieldWidth v + 8 * (maxTextBytes l + 1) := by decide

theorem byteSegment_fits_forty {bs : List Byte} {l : Level} (h : bs.length ≤ maxTextBytes l) :
    Fits [makeByteSegment bs] l 40 := by
  obtain ⟨hcount, hcap⟩ := maxTextBytes_fits l (mem_allLevels l)
  rw [byteSegment_fits_iff]
  omega

theorem byteSegment_not_fits {bs : List Byte} {l : Level} {v : Nat} (h : maxTextBytes l < bs.length) (hlo : 1 ≤ v)
    (hhi : v ≤ 40) : ¬Fits [makeByteSegment bs] l v := by
  have hcap := maxTextBytes_succ_exceeds v (List.mem_range'_1.mpr ⟨hlo, by omega⟩) l (mem_allLevels l)
  rw [byteSegment_fits_iff]
  omega

/-! ### The statements -/

/-- Settles O43: the text's one segment fits version 40, so some version fits. -/
theorem enctxtEncodesTheText : Obligations.EnctxtEncodesTheText := by
  intro s ecc units bs hlen hmax htext hexp hbytes
  exact execEnctxt_symbol ecc hlen hmax htext hexp ⟨40, by decide, le_rfl, byteSegment_fits_forty hbytes⟩

/-- Settles O44: each error is the outcome of its texts; no version holds a text above the bytes of its level. -/
theorem enctxtErrorsAreOrdered : Obligations.EnctxtErrorsAreOrdered := by
  intro s ecc
  refine ⟨fun hlen => execEnctxt_ends (.lenRange hlen), fun units hlen hmax htext => ⟨fun hexp => ?_, ?_⟩⟩
  · exact execEnctxt_ends (.loneSurrogate units hlen hmax htext hexp)
  · intro bs hexp hbytes
    exact execEnctxt_ends (.segment units bs _ hlen hmax htext hexp
      (.noVersionFits fun v hlo hhi => byteSegment_not_fits hbytes hlo hhi))

/-- Settles O47: each error is the outcome of its operands and buffers. -/
theorem encsegErrorsAreOrdered : Obligations.EncsegErrorsAreOrdered := by
  intro s ecc minv maxv mask boost
  refine ⟨fun hv => execEncseg_ends (.versionRange hv), fun hv => ⟨fun hm => execEncseg_ends (.maskRange hv hm),
    fun hm => ⟨fun hn => execEncseg_ends (.countRange hv hm hn), fun tab hn hmax htab => ⟨?_, ?_⟩⟩⟩⟩
  · exact fun htotal => execEncseg_ends (.lenRange tab hv hm hn hmax htab htotal)
  · intro bytes htotal hlen hbytes hnone
    exact execEncseg_ends (.segments tab bytes _ hv hm hn hmax htab htotal hlen hbytes (.noVersionFits hnone))

/-- Settles O53: the outcome is one of the inputs, and it determines what the host reads and the Symbol. -/
theorem encodingIsDeterministic : Obligations.EncodingIsDeterministic := by
  constructor
  · intro s t ecc s' hcfg hlen htext h
    obtain ⟨o, ho, hs⟩ := execEnctxt_next h
    rw [hcfg, hlen, htext] at ho
    obtain ⟨t', h', ht⟩ := execEnctxt_ends ho
    exact ⟨t', h', hs.same_readings ht⟩
  · intro s t ecc minv maxv mask boost s' hcfg hn htab hdata h
    obtain ⟨o, ho, hs⟩ := execEncseg_next h
    rw [hcfg, hn, htab, hdata] at ho
    obtain ⟨t', h', ht⟩ := execEncseg_ends ho
    exact ⟨t', h', hs.same_readings ht⟩

/-- Settles O54: an encode command that goes on ends with an outcome. -/
theorem encodingIsAllOrNothing : Obligations.EncodingIsAllOrNothing := by
  rintro i s t (⟨ecc, rfl⟩ | ⟨ecc, minv, maxv, mask, boost, rfl⟩) h
  · obtain ⟨o, -, hend⟩ := execEnctxt_next h
    exact hend.error_or_symbol
  · obtain ⟨o, -, hend⟩ := execEncseg_next h
    exact hend.error_or_symbol

end Sys2Proof.Machine
end

section
/-! PROOFS. GETMOD and its stage S11 (spec/49_commands.md R263, O49, O50). -/

namespace Sys2Proof.Machine

/-- The coordinates are checked against the size of a held Symbol; with none held, no coordinate is in the grid. -/
theorem coordsInGrid_iff (y : Sym) (px py : Int) :
    CoordsInGrid y px py ↔ y.valid = true ∧ (0 ≤ px ∧ px < y.size) ∧ 0 ≤ py ∧ py < y.size := by
  cases hv : y.valid <;> simp [CoordsInGrid, heldSize, hv]

theorem not_coordsInGrid {y : Sym} {px py : Int}
    (h : y.valid = false ∨ px < 0 ∨ (y.size : Int) ≤ px ∨ py < 0 ∨ (y.size : Int) ≤ py) : ¬CoordsInGrid y px py := by
  rw [coordsInGrid_iff]
  rintro ⟨hv, hx, hy⟩
  obtain h | h := h
  · rw [hv] at h; cases h
  · omega

theorem getModule_inGrid {px py : Int} {s : State} (hv : s.sym.valid = true) (hx : 0 ≤ px ∧ px < s.sym.size)
    (hy : 0 ≤ py ∧ py < s.sym.size) :
    getModule px py s = .next (setStage .s0 (setResult (s.sym.modules.get px.toNat py.toNat) s)) :=
  if_pos ((coordsInGrid_iff ..).mpr ⟨hv, hx, hy⟩)

theorem getModule_outside {px py : Int} {s : State}
    (h : s.sym.valid = false ∨ px < 0 ∨ (s.sym.size : Int) ≤ px ∨ py < 0 ∨ (s.sym.size : Int) ≤ py) :
    getModule px py s = .next (raise .coordRange s) := if_neg (not_coordsInGrid h)

theorem execGetmod_eq_finish (px py : Int) (s : State) :
    execGetmod px py s = finish (getModule px py (getmodStart px py s)) := rfl

/-- Settles O49: the coordinates are in the grid, so the module is read, in the command and in its stage. -/
theorem getmodReadsTheModule : Obligations.GetmodReadsTheModule := by
  refine ⟨fun s x y hv hx hy => ?_, fun s hv hx hy => getModule_inGrid hv hx hy⟩
  rw [exec, execGetmod_eq_finish, getModule_inGrid (s := getmodStart x y s) hv hx hy, finish_next_busy rfl]
  rfl

/-- Settles O50: the coordinates are outside the grid, so COORD_RANGE, whose code is 0x41, is raised. -/
theorem getmodOutsideTheGridRaises : Obligations.GetmodOutsideTheGridRaises := by
  refine ⟨fun s x y h => ?_, fun s h => getModule_outside h⟩
  rw [exec, execGetmod_eq_finish, getModule_outside (s := getmodStart x y s) h, finish_next_idle rfl]
  rfl

end Sys2Proof.Machine
end

section
/-! PROOFS. The whole machine: reset, the write of a command word, and where a run stops (spec/49_commands.md R260, R264;
spec/70_reset_and_hazards.md R310, R318; O1, O10, O12, O58). -/

namespace Sys2Proof.Machine

/-- A reset that the host makes is the next step, also while a command is executing (R310). -/
theorem step_of_reset {s : State} {rest : List HostAction} (hp : s.pending = .reset :: rest) :
    step s = .next (hostReset rest s) := by
  obtain ⟨-, hr, -⟩ | ⟨h, -⟩ | ⟨act, rest', h, -, hstep⟩ := step_cases s
  · simp [resetPending, hp] at hr
  · rw [hp] at h; cases h
  · rw [hp] at h; cases h; exact hstep

/-- Settles O1: the fields of the reset state, and the step of a reset. -/
theorem resetGivesTheResetState : Obligations.ResetGivesTheResetState :=
  ⟨⟨by decide, rfl, rfl, rfl, fun _ => ⟨rfl, rfl, rfl⟩⟩, fun _ _ hp => step_of_reset hp⟩

/-- While QRSE is idle, a write of CMD executes the word (R260). -/
theorem step_of_commandWrite {s : State} {w : Word} {rest : List HostAction} (hb : s.busy = false)
    (hp : s.pending = .writeReg 0 w :: rest) : step s = executeCommand w { s with pending := rest } :=
  step_of_pending hb hp

/-- Settles O10: the step executes the word, which decodes to the instruction. -/
theorem commandWriteRunsTheDecodedCommand : Obligations.CommandWriteRunsTheDecodedCommand := by
  intro s w rest i hb hp hd
  rw [step_of_commandWrite hb hp, executeCommand, hd]

/-- Settles O12: the raise of ILLEGAL_CMD, whose code is 0x11, finds BUSY 0 and STAGE S0 and leaves them so. -/
theorem illegalWordOnlyRaises : Obligations.IllegalWordOnlyRaises := by
  intro s w rest r hb hs hp hd
  have hcode : Cause.illegalCmd.code = 0x11 := by decide
  rw [step_of_commandWrite hb hp, executeCommand, hd]
  simp [illegalCommand, raise, startCommand, hb, hs, hcode]

/-! ### Stops -/

/-- An outcome stops only where R318 and R283 say so: at an access outside a buffer, or at an element that an encode
command reads and no host write has set. -/
def OnlyLegalStops (s : State) : Out → Prop
  | .next _ => True
  | .fault r => ∃ sp a n, r = .noSuchElement sp a n ∧ s.cfg.elements sp < a + n
  | .refused r =>
    (∃ i, r = .unwrittenElement .text i ∧ i < s.textlen.toNat ∧ s.text.read i = none)
      ∨ (∃ i, r = .unwrittenElement .segtab i ∧ i < s.nseg.toNat ∧ s.segtab.read i = none)
      ∨ ∃ i, r = .unwrittenElement .segdata i ∧ i < s.cfg.segdataBytes ∧ s.segdata.read i = none

theorem onlyLegalStops_of_eq_next {s t : State} {o : Out} (h : o = .next t) : OnlyLegalStops s o := h ▸ trivial

theorem OnlyLegalStops.andThen {s : State} {o : Out} {f : State → Out} (ho : OnlyLegalStops s o)
    (hf : ∀ u, OnlyLegalStops s (f u)) : OnlyLegalStops s (andThen o f) := by
  cases o with
  | next u =>
    cases hb : u.busy
    · rw [andThen_next_idle f hb]; trivial
    · rw [andThen_next_busy f hb]; exact hf u
  | fault r => exact ho
  | refused r => exact ho

theorem OnlyLegalStops.finish {s : State} {o : Out} (ho : OnlyLegalStops s o) : OnlyLegalStops s (finish o) :=
  ho.andThen fun _ => trivial

/-- A run of reads from index 0 that stops does so at an element of the run that was never written. -/
theorem readRun_error_unwritten {w : Nat} {b : Buffer w} {n i : Nat} (h : b.readRun 0 n = .error i) :
    i < n ∧ b.read i = none := by
  obtain ⟨⟨-, hi⟩, hnone, -⟩ := (readRun_error_iff b 0 n i).mp h
  exact ⟨by omega, hnone⟩

theorem execS1Segb_stops (s : State) : OnlyLegalStops s (execS1Segb s) := by
  unfold execS1Segb
  split
  · trivial
  split
  · rename_i i hread
    exact .inl ⟨i, rfl, readRun_error_unwritten hread⟩
  · split <;> trivial

/-- S2 to S10 have no stop (R318). -/
theorem runFromS2_stops (s u : State) : OnlyLegalStops s (runFromS2 u) := by
  obtain ⟨t, h, -⟩ := runFromS2_ignoresCmd u
  exact onlyLegalStops_of_eq_next h

theorem getModule_stops (px py : Int) (s : State) : OnlyLegalStops s (getModule px py s) := by
  obtain ⟨-, h⟩ | ⟨-, h⟩ := getModule_cases px py s <;> exact onlyLegalStops_of_eq_next h

/-- ENCSEG's load reads the first N elements of SEGTAB, and of SEGDATA only elements that exist. -/
theorem loadSegments_stops (s : State) {k : List Segment → Out} (hk : ∀ segs, OnlyLegalStops s (k segs)) :
    OnlyLegalStops s (loadSegments s k) := by
  unfold loadSegments
  split
  · trivial
  split
  · rename_i i hread
    exact .inr (.inl ⟨i, rfl, readRun_error_unwritten hread⟩)
  rename_i tab htab
  split
  · trivial
  rename_i htotal
  split
  · rename_i i hread
    obtain ⟨hi, hnone⟩ := readRun_error_unwritten hread
    exact .inr (.inr ⟨i, rfl, by omega, hnone⟩)
  · exact hk _

theorem execEnctxt_stops (ecc : Level) (s : State) : OnlyLegalStops s (execEnctxt ecc s) :=
  ((execS1Segb_stops (enctxtStart ecc s)).andThen fun _ => runFromS2_stops _ _).finish

theorem execEncseg_stops (ecc : Level) (minv maxv : Nat) (mask : Int) (boost : Bool) (s : State) :
    OnlyLegalStops s (execEncseg ecc minv maxv mask boost s) := by
  refine OnlyLegalStops.finish ?_
  unfold runEncSeg
  split
  · trivial
  split
  · trivial
  · exact loadSegments_stops (startEncode (encodeEncseg ecc minv maxv mask boost) s) fun _ => runFromS2_stops _ _

theorem executeCommand_stops (w : Word) (s : State) : OnlyLegalStops s (executeCommand w s) := by
  unfold executeCommand
  split
  · trivial
  rename_i i hd
  obtain ⟨ecc, rfl⟩ | ⟨ecc, minv, maxv, mask, boost, rfl⟩ | ⟨x, y, rfl⟩ := decode_command_cases hd
  · exact execEnctxt_stops ecc s
  · exact execEncseg_stops ecc minv maxv mask boost s
  · exact OnlyLegalStops.finish (getModule_stops x y (getmodStart x y s))

/-- A stage of a command in progress stops in S1 only. -/
theorem advance_stops (s : State) : OnlyLegalStops s (advance s) := by
  rw [advance_eq_stageOp]
  cases s.stage with
  | s1 => exact execS1Segb_stops s
  | s2 => exact have ⟨_, h, _⟩ := execS2Vsel_ignoresCmd s; onlyLegalStops_of_eq_next h
  | s4 => exact have ⟨_, h, _⟩ := execS4Asm_ignoresCmd s; onlyLegalStops_of_eq_next h
  | s9 => exact have ⟨_, h, _⟩ := execS9Msel_ignoresCmd s; onlyLegalStops_of_eq_next h
  | s11 => exact getModule_stops _ _ s
  | s0 | s3 | s5 | s6 | s7 | s8 | s10 => trivial

theorem elementAccess_stops (sp : Space) (a n : Nat) (s t : State) : OnlyLegalStops s (elementAccess sp a n s t) := by
  obtain ⟨-, h⟩ | ⟨hout, h⟩ := elementAccess_cases sp a n s t <;> rw [h]
  · trivial
  · exact ⟨sp, a, n, rfl, hout⟩

theorem hostStep_stops (act : HostAction) (s : State) : OnlyLegalStops s (hostStep act s) := by
  cases act with
  | readReg i => trivial
  | writeReg i v =>
    by_cases hi : i = 0
    · rw [hostStep, if_pos hi]
      exact executeCommand_stops v s
    · rw [hostStep, if_neg hi]
      trivial
  | readElements _ _ _ | writeText _ _ | writeSegtab _ _ | writeSegdata _ _ => exact elementAccess_stops ..
  | reset => trivial

theorem step_stops (s : State) : OnlyLegalStops s (step s) := by
  obtain ⟨-, -, h⟩ | ⟨-, -, h⟩ | ⟨act, rest, -, -, h⟩ := step_cases s <;> rw [h]
  · exact advance_stops s
  · trivial
  · exact hostStep_stops act { s with pending := rest }

/-- Settles O58, by the stops of a step. -/
theorem onlyTwoStops : Obligations.OnlyTwoStops := by
  constructor <;>
  · intro s r h
    have hstops := step_stops s
    rw [h] at hstops
    exact hstops

end Sys2Proof.Machine
end
